-- ==== Sys2Proof/Word.lean ====
section
/-! DEFINITION. The words of the bus-cycle core and the plain data types its state, its inputs and its
records are made of (spec 00_scope.md R8, R10, R11; 10_state.md; 20_memory.md R90; 44_instrumentation.md). -/

namespace Sys2Proof

/-- A data value, DATA_W = 8 (R8). -/
abbrev Byte := BitVec 8
/-- A value of the address bus, ADDR_W = 16 (R8). -/
abbrev Addr := BitVec 16
/-- An I/O port number, PORT_W = 8 (R8). -/
abbrev Port := BitVec 8
/-- An opaque responder or sink token, HANDLE_W = 32 (R8, R105). -/
abbrev Handle := BitVec 32
/-- The debug mask, DBG_W = 4: bit 0 CYCLE, bit 1 IO, bit 2 MEM, bit 3 VERBOSE (R8, R48). -/
abbrev DbgMask := BitVec 4
/-- A host command word CMD40 (R103). -/
abbrev CmdWord := BitVec 40
/-- A classification key CLASS6 (R102). -/
abbrev Key := BitVec 6
/-- A bus snapshot as one word, SNAP40 (R100). -/
abbrev SnapWord := BitVec 40
/-- The CPU's input of one half-cycle as one word, PINS30 (R101). -/
abbrev PinWord := BitVec 30

/-- The four handler kinds, in the order of their codes 0 to 3 (R113). -/
inductive Kind where
  | memrd | memwr | iord | iowr
  deriving DecidableEq, Repr

/-- The two halves of a clock cycle: HIGH first, then LOW (R141). -/
inductive Half where
  | hi | lo
  deriving DecidableEq, Repr

/-- What a run does when its last cycle has ended: the run was started by ADVANCE (`host`), or by
RESET or INIT (`reset`) (R33). -/
inductive Cont where
  | host | reset
  deriving DecidableEq, Repr

/-- The direction of the data bus: `input` is IN (the core releases the pins), `output` is OUT (the
core drives DOUT) (R36). -/
inductive Dir where
  | input | output
  deriving DecidableEq, Repr

/-- The two address spaces and where an access goes: a u16 memory address or a u8 I/O port (R80). -/
inductive Location where
  | mem (a : Addr)
  | port (p : Port)
  deriving DecidableEq, Repr

/-- Who served a transaction: the responder with a handle, or the fixed default (R90). -/
inductive Served where
  | handler (h : Handle)
  | byDefault
  deriving DecidableEq, Repr

/-- One record of the transaction history HIST (R90). -/
structure HistRecord where
  kind   : Kind
  loc    : Location
  value  : Byte
  served : Served
  cnt    : Int
  half   : Half
  deriving DecidableEq, Repr

/-- The CPU's pin values in one half-cycle, controls in asserted-true form (PINS30, R101, R11). -/
structure Pins where
  a    : Addr
  d    : Byte
  rd   : Bool
  wr   : Bool
  mreq : Bool
  iorq : Bool
  m1   : Bool
  rfsh : Bool
  deriving DecidableEq, Repr

/-- The bus snapshot SNAP (R52), its fields those of SNAP40 (R100); the reserved bits 39:34 are always
0 and so have no field (log entry 12). -/
structure Snap where
  a    : Addr
  d    : Byte
  rd   : Bool
  wr   : Bool
  mreq : Bool
  iorq : Bool
  m1   : Bool
  rfsh : Bool
  rst  : Bool
  int  : Bool
  nmi  : Bool
  clk  : Bool
  deriving DecidableEq, Repr

/-- One trace line, an abstract record (R242, R243). -/
inductive TraceLine where
  | summary (cnt : Int) (snap : Snap)
  | pinIn (snap : Snap)
  | pinOut (clk rst int nmi : Bool) (dout : Byte)
  | pinDir (dir : Dir)
  deriving DecidableEq, Repr

/-- One control line of the pin interface (R40); the address and data buses are not control lines. -/
inductive ControlLine where
  | readStrobe | writeStrobe | memoryRequest | ioRequest | instructionFetch | refresh
  | reset | interrupt | nonMaskableInterrupt | clock
  deriving DecidableEq, Repr

/-- The party that drives a line (R40). -/
inductive Driver where
  | cpu | core
  deriving DecidableEq, Repr

/-- An electrical level of a line (R11, R41). -/
inductive Level where
  | low | high
  deriving DecidableEq, Repr

end Sys2Proof
end

