-- ==== Sys2Proof/Config.lean ====
section
/-! DEFINITION. What is fixed for one core and what the spec leaves free: the two named parameters with
their defaults (00_scope.md R8), the fixed constants, and the free values (10_state.md R30, R31;
42_dispatch.md R190), each an opaque constant with no body. -/

namespace Sys2Proof

/-- The two parameters R8 leaves to a model as arguments: the reset pulse width in clock cycles
(RESET_CYCLES, decision D7) and the width of the signed cycle counter (CNT_W, decision D10). Log entry 9. -/
structure Params where
  resetCycles : Nat
  cntWidth    : Nat
  deriving DecidableEq, Repr

namespace Config

/-- ADV_MAX, the largest ADVANCE count, also the largest `rem` of a run (R8, R33). -/
def advMax : Nat := 4294967295

/-- CNT_INIT, the counter's sentinel (R8, R43). -/
def cntInit : Int := -1

/-- DOUT_INIT, the data output latch at construction (R8, decision D12). -/
def doutInit : Byte := 0x00

/-- The value a read yields when no responder is installed (R198). -/
def defaultRead : Byte := 0x00

/-- R8's defaults: RESET_CYCLES = 4 and CNT_W = 32. -/
def defaultParams : Params where
  resetCycles := 4
  cntWidth := 32

/-- FREE VALUE. The CPU's pins in a half-cycle for which the environment lists none: any PINS30 word
(R30 b, R101; 93_implementation_defined.md I2, I3). The argument is the environment's draw counter.
Log entry 3. -/
opaque freePins : Nat → PinWord

/-- FREE VALUE. R190's oracle RespRead: what the responder `h` of read kind `k` answers for a location,
given the transaction history, for the free choice numbered by the environment's draw counter.
Log entry 4. -/
opaque readAnswer : Kind → Handle → Location → List HistRecord → Nat → Byte

end Config

/-- CNT_MAX = 2^(CNT_W-1) - 1 (R8). -/
def Params.cntMax (p : Params) : Int := ((2 ^ (p.cntWidth - 1) : Nat) : Int) - 1

/-- The constraint R8 puts on RESET_CYCLES (at least 4), that a run of RESET_CYCLES cycles fits `rem`
(a u32, R33), and that a signed counter has at least one bit. -/
def Params.valid (p : Params) : Prop :=
  4 ≤ p.resetCycles ∧ p.resetCycles ≤ Config.advMax ∧ 1 ≤ p.cntWidth

end Sys2Proof
end

