-- ==== Sys2Proof/Syntax.lean ====
section
/-! DEFINITION. The instructions of the core: the eight host commands of CMD40 (30_encoding.md R111) and
the nine classes of CLASS6 (R115), one constructor for each row of the opcode table. -/

namespace Sys2Proof

/-- One constructor per row of the opcode table. A host command carries its operands (R105, R113). A
class carries the bits of the key that its row leaves open ("x" in R115), each under its key's name,
so that no bit of a key is lost; by R180 to R188 the class's meaning does not examine them. -/
inductive Instr where
  /-- INIT: construct the core (R225). -/
  | init
  /-- ADVANCE n: run n full clock cycles (R140). -/
  | advance (n : Nat)
  /-- RESET: pulse the CPU's reset line (R220). -/
  | reset
  /-- SETH k, h: install or replace the responder of slot k (R200). -/
  | seth (k : Kind) (h : Handle)
  /-- CLRH k: remove the responder of slot k (R201). -/
  | clrh (k : Kind)
  /-- SETDBG m: set the debug mask (R245). -/
  | setdbg (m : DbgMask)
  /-- SETSINK h: install the debug sink (R246). -/
  | setsink (h : Handle)
  /-- CLRSINK: remove the debug sink (R247). -/
  | clrsink
  /-- MEM_READ: a read edge with memory-request (R180). -/
  | memRead (wr prevWr iorq : Bool)
  /-- IO_READ: a read edge with I/O-request alone (R181). -/
  | ioRead (wr prevWr : Bool)
  /-- RD_NONE: a read edge with no request (R182). -/
  | rdNone (wr prevWr : Bool)
  /-- RD_HELD: the read-strobe still asserted (R183). -/
  | rdHeld (wr prevWr mreq iorq : Bool)
  /-- MEM_WRITE: a write edge with memory-request (R184). -/
  | memWrite (prevRd iorq : Bool)
  /-- IO_WRITE: a write edge with I/O-request alone (R185). -/
  | ioWrite (prevRd : Bool)
  /-- WR_NONE: a write edge with no request (R186). -/
  | wrNone (prevRd : Bool)
  /-- WR_HELD: the write-strobe still asserted (R187). -/
  | wrHeld (prevRd mreq iorq : Bool)
  /-- IDLE: no strobe (R188). -/
  | idle (prevRd prevWr mreq iorq : Bool)
  deriving DecidableEq, Repr

/-- Whether an instruction is a host command (CMD40) and not a class (CLASS6). -/
def Instr.isCommand : Instr → Bool
  | .init | .advance _ | .reset | .seth _ _ | .clrh _ | .setdbg _ | .setsink _ | .clrsink => true
  | .memRead _ _ _ | .ioRead _ _ | .rdNone _ _ | .rdHeld _ _ _ _ | .memWrite _ _ | .ioWrite _
  | .wrNone _ | .wrHeld _ _ _ | .idle _ _ _ _ => false

end Sys2Proof
end

