-- ==== Sys2Proof/Machine/State.lean ====
section
/-! DEFINITION. The state of one core as plain data (10_state.md R32, R33, R52, R53; 20_memory.md R90;
44_instrumentation.md R241), the two fields beside it that hold what R31 calls a model's arguments and
draws, the reasons a step can stop, and the state at power-on. -/

namespace Sys2Proof.Machine

/-- A responder or sink slot: whether one is installed, and which (R47, R49). -/
structure Slot where
  inst   : Bool
  handle : Handle
  deriving DecidableEq, Repr

/-- The handler table HT, one slot for each kind (R47). -/
structure HandlerTable where
  memrd : Slot
  memwr : Slot
  iord  : Slot
  iowr  : Slot
  deriving DecidableEq, Repr

/-- The bus protocol FSM (R33). `rem` counts the cycles still to run with the current one, `half` is the
half-cycle the next half-cycle step executes. -/
inductive Fsm where
  | off
  | idle
  | run (rem : Nat) (half : Half) (cont : Cont)
  | stopped
  deriving DecidableEq, Repr

/-- Refusal reasons of R262. -/
inductive Reason where
  | notConstructed | busy | reinit | reservedEncoding
  deriving DecidableEq, Repr

/-- Fault codes of R263. -/
inductive FaultCode where
  | cntOverflow
  deriving DecidableEq, Repr

/-- The sticky mark MARK (R53). -/
inductive Mark where
  | none
  | refused (r : Reason)
  | fault (c : FaultCode)
  deriving DecidableEq, Repr

/-- What an outside party does in one call the core makes to it: the byte a read responder answers
(R190; read by no other call), and the command word it issues while it runs, if any (R264). -/
structure Reply where
  value   : Byte
  command : Option CmdWord
  deriving DecidableEq, Repr

/-- The outside of the core (R30 b, c, d), no part of the hardware: the command words the host issues,
oldest first; the CPU's pins, one entry for each half-cycle to come; the replies of responders and
sink, one for each call to come; the pins of the half-cycle under way; and the number of free draws
made so far. Past the end of `pins` and of `replies` the free values of Config are drawn. Log entries
1, 3 and 4. -/
structure Env where
  commands : List CmdWord
  pins     : List Pins
  replies  : List Reply
  pinsNow  : Pins
  draws    : Nat
  deriving DecidableEq, Repr

/-- The state elements of R32, in its order, then `params` (R8) and `env` (R31), which are the model's
arguments and not state of the hardware. Every control bit is in asserted-true form (R11). -/
structure State where
  /-- FSM (R33). -/
  fsm    : Fsm
  /-- CLK, the clock output, true = HIGH (R34). -/
  clk    : Bool
  /-- RST, the reset output, true = asserted (R35). -/
  rst    : Bool
  /-- INT, the interrupt output, true = asserted (R35). -/
  int    : Bool
  /-- NMI, the non-maskable-interrupt output, true = asserted (R35). -/
  nmi    : Bool
  /-- DIR, the data bus direction (R36). -/
  dir    : Dir
  /-- DOUT, the data output latch (R37). -/
  dout   : Byte
  /-- PREV_RD (R39). -/
  prevRd : Bool
  /-- PREV_WR (R39). -/
  prevWr : Bool
  /-- CNT, the signed cycle counter of CNT_W bits (R42); a run keeps it within its width (R44). -/
  cnt    : Int
  /-- HT (R47). -/
  ht     : HandlerTable
  /-- DBG (R48). -/
  dbg    : DbgMask
  /-- SINK (R49). -/
  sink   : Slot
  /-- SNAP (R52). -/
  snap   : Snap
  /-- HIST, oldest first (R90). -/
  hist   : List HistRecord
  /-- TRACE, oldest first: each line with the handle of the sink it went to (R241). -/
  trace  : List (Handle × TraceLine)
  /-- MARK (R53). -/
  mark   : Mark
  /-- The core's parameters (R8, R31). -/
  params : Params
  /-- The outside of the core (R30, R31). -/
  env    : Env
  deriving DecidableEq, Repr

/-- Why a step ends the run with a fault. -/
inductive Fault where
  /-- Raised by every step and meaning in FSM = STOPPED after a recorded fault: no step is enabled there
  (R33, R261). Safe: the machine stops. -/
  | stopped (c : FaultCode)
  /-- Raised in FSM = STOPPED with no mark, which no run reaches (R53). Safe. -/
  | unmarked
  /-- Raised by a class's meaning when FSM is not RUN: the half-cycle step is enabled exactly in RUN
  (R142). `step` never calls one there. Safe. -/
  | halfCycleNotEnabled
  deriving DecidableEq, Repr

/-- Why a step has no meaning. -/
inductive Refusal where
  /-- An instruction with no meaning yet, named by its mnemonic. Raised by no arm of this model. Safe. -/
  | notModelled (mnemonic : String)
  /-- Raised by every step and meaning in FSM = STOPPED after a recorded refusal: no step is enabled
  there (R33, R261). Safe. -/
  | stopped (r : Reason)
  deriving DecidableEq, Repr

/-- An empty slot (R47, decision D27). -/
def emptySlot : Slot where
  inst := false
  handle := 0

/-- The empty handler table (R226). -/
def emptyTable : HandlerTable where
  memrd := emptySlot
  memwr := emptySlot
  iord := emptySlot
  iowr := emptySlot

/-- Pins with every line at 0, that is, every control deasserted. -/
def zeroPins : Pins where
  a := 0
  d := 0
  rd := false
  wr := false
  mreq := false
  iorq := false
  m1 := false
  rfsh := false

/-- A snapshot with every bit 0. -/
def zeroSnap : Snap where
  a := 0
  d := 0
  rd := false
  wr := false
  mreq := false
  iorq := false
  m1 := false
  rfsh := false
  rst := false
  int := false
  nmi := false
  clk := false

/-- An outside that lists nothing. DESIGN CHOICE (log entry 19, unsafe): before the first half-cycle the CPU's
pins are taken as 0, so every control line it drives is deasserted; R40 and R101 give pins in a half-cycle only. -/
def emptyEnv : Env where
  commands := []
  pins := []
  replies := []
  pinsNow := zeroPins
  draws := 0

/-- The core at power-on, before construction (R55's first column): FSM = OFF, HIST and TRACE empty, MARK
none. R55 leaves every other element unspecified. DESIGN CHOICE (log entry 2, unsafe): they hold the
values INIT's idle step gives them (R226), and SNAP, which it does not write, is all 0. -/
def State.reset : State where
  fsm := .off
  clk := false
  rst := false
  int := false
  nmi := false
  dir := .input
  dout := Config.doutInit
  prevRd := false
  prevWr := false
  cnt := Config.cntInit
  ht := emptyTable
  dbg := 0
  sink := emptySlot
  snap := zeroSnap
  hist := []
  trace := []
  mark := .none
  params := Config.defaultParams
  env := emptyEnv

end Sys2Proof.Machine
end

