-- ==== Sys2Proof/Machine/Flags.lean ====
section
/-! DEFINITION. The conditions the core computes from its one-bit values: strobe edges and the class of a
half-cycle (41_classification.md R174, R175), the hold-time direction (40_bus_cycle.md R150), and the
emission condition (44_instrumentation.md R240). The core has no condition codes. -/

namespace Sys2Proof.Machine

/-- The read edge of a half-cycle (R174). -/
def readEdge (snap : Snap) (prevRd : Bool) : Bool := snap.rd && !prevRd

/-- The write edge of a half-cycle: none while the read-strobe is asserted (R174). -/
def writeEdge (snap : Snap) (prevWr : Bool) : Bool := !snap.rd && snap.wr && !prevWr

/-- The class of a half-cycle, by the branches of R175. -/
def classify (snap : Snap) (prevRd prevWr : Bool) : Instr :=
  if snap.rd then
    if prevRd then .rdHeld snap.wr prevWr snap.mreq snap.iorq
    else if snap.mreq then .memRead snap.wr prevWr snap.iorq
    else if snap.iorq then .ioRead snap.wr prevWr
    else .rdNone snap.wr prevWr
  else if snap.wr then
    if prevWr then .wrHeld prevRd snap.mreq snap.iorq
    else if snap.mreq then .memWrite prevRd snap.iorq
    else if snap.iorq then .ioWrite prevRd
    else .wrNone prevRd
  else .idle prevRd prevWr snap.mreq snap.iorq

/-- The hold-time direction policy: OUT while the sampled read-strobe is asserted, else IN (R150). -/
def holdDir (snap : Snap) : Dir := if snap.rd then .output else .input

/-- DBG bit 0, the per-cycle trace (R48). -/
def dbgCycle (m : DbgMask) : Bool := m.getLsbD 0
/-- DBG bit 1, the I/O-transaction trace (R48). -/
def dbgIo (m : DbgMask) : Bool := m.getLsbD 1
/-- DBG bit 2, the memory-transaction trace (R48). -/
def dbgMem (m : DbgMask) : Bool := m.getLsbD 2
/-- DBG bit 3, the verbose pin dump (R48). -/
def dbgVerbose (m : DbgMask) : Bool := m.getLsbD 3

/-- Whether a cycle with this LO snapshot emits: R240's `hit`. -/
def emitHit (m : DbgMask) (snap : Snap) : Bool :=
  dbgCycle m || (dbgIo m && snap.iorq) || (dbgMem m && snap.mreq)

/-- Whether the counter has no next value: the end of a cycle would take it past CNT_MAX (R44, R152;
log entry 11). -/
def cntAtMax (p : Params) (cnt : Int) : Bool := decide (p.cntMax ≤ cnt)

end Sys2Proof.Machine
end

