-- ==== Sys2Proof/WellFormed.lean ====
section
/-! DEFINITION. Which terms of `Instr` an encoding can spell (30_encoding.md R105, R111, R115). The
handles, the debug mask, the kinds and a key's open bits are exact in their types; the one operand
with a bound of its own is ADVANCE's count. -/

namespace Sys2Proof

/-- ADVANCE's count is 0 to ADV_MAX (R105); every other operand is exact in its type. -/
def Instr.wellFormed : Instr → Bool
  | .advance n => decide (n ≤ Config.advMax)
  | .init | .reset | .seth _ _ | .clrh _ | .setdbg _ | .setsink _ | .clrsink => true
  | .memRead _ _ _ | .ioRead _ _ | .rdNone _ _ | .rdHeld _ _ _ _ | .memWrite _ _ | .ioWrite _
  | .wrNone _ | .wrHeld _ _ _ | .idle _ _ _ _ => true

end Sys2Proof
end

