-- ==== Sys2Proof/Decode.lean ====
section
/-! DEFINITION. The decoder of the two formats of 30_encoding.md (CMD40, R103, R110, R111, R120; CLASS6,
R102, R115), total on any word and rejecting by name, and after it the encoder written from the same
tables. -/

namespace Sys2Proof

/-- An instruction's word in its own format. -/
inductive InstrWord where
  | command (w : CmdWord)
  | key (k : Key)
  deriving DecidableEq, Repr

/-- Why R120 reserves a command word: its opcode is 0x8 to 0xF, its selector is not one the opcode
takes, or an operand field the opcode does not use is not 0. -/
inductive Reserved where
  | opcode | selector | operand
  deriving DecidableEq, Repr

/-- What the decoder reads: an instruction, or a named rejection. -/
inductive Decoded where
  | instr (i : Instr)
  | reserved (why : Reserved)
  deriving DecidableEq, Repr

/-! The fields of CMD40 (R103). -/

/-- CMD40[39:36]. -/
def cmdOp (w : CmdWord) : BitVec 4 := w.extractLsb' 36 4
/-- CMD40[35:32]. -/
def cmdSel (w : CmdWord) : BitVec 4 := w.extractLsb' 32 4
/-- CMD40[31:0]. -/
def cmdArg (w : CmdWord) : BitVec 32 := w.extractLsb' 0 32

/-- The handler kind of a selector code (R113); codes 4 to 15 reach it from no row of R111. -/
def kindOfCode (c : BitVec 4) : Kind :=
  match c.toNat % 4 with
  | 0 => .memrd
  | 1 => .memwr
  | 2 => .iord
  | _ => .iowr

/-- The selector code of a handler kind (R113). -/
def codeOfKind : Kind → BitVec 4
  | .memrd => 0
  | .memwr => 1
  | .iord => 2
  | .iowr => 3

/-- One row of the command map: a word matches when `word & mask = pattern` (R110). -/
structure CommandRow where
  pattern : CmdWord
  mask    : CmdWord
  build   : CmdWord → Instr

/-- The eight rows of R111, in their order. -/
def commandRows : List CommandRow :=
  [ { pattern := 0x0000000000, mask := 0xFFFFFFFFFF, build := fun _ => .init },
    { pattern := 0x1000000000, mask := 0xFF00000000, build := fun w => .advance (cmdArg w).toNat },
    { pattern := 0x2000000000, mask := 0xFFFFFFFFFF, build := fun _ => .reset },
    { pattern := 0x3000000000, mask := 0xFC00000000,
      build := fun w => .seth (kindOfCode (cmdSel w)) (cmdArg w) },
    { pattern := 0x4000000000, mask := 0xFCFFFFFFFF, build := fun w => .clrh (kindOfCode (cmdSel w)) },
    { pattern := 0x5000000000, mask := 0xFFFFFFFFF0, build := fun w => .setdbg (w.extractLsb' 0 4) },
    { pattern := 0x6000000000, mask := 0xFF00000000, build := fun w => .setsink (cmdArg w) },
    { pattern := 0x7000000000, mask := 0xFFFFFFFFFF, build := fun _ => .clrsink } ]

/-- Which clause of R120 a word that matches no row falls under. -/
def reservedClause (w : CmdWord) : Reserved :=
  if 8 ≤ (cmdOp w).toNat then .opcode
  else if (cmdOp w = 3 ∨ cmdOp w = 4) ∧ (cmdSel w).toNat < 4 then .operand
  else if cmdSel w = 0 then .operand
  else .selector

/-- The command decoder: the first row that matches, else a rejection (R110, R120). -/
def decodeCommand (w : CmdWord) : Decoded :=
  match commandRows.find? (fun r => w &&& r.mask == r.pattern) with
  | some r => .instr (r.build w)
  | none => .reserved (reservedClause w)

/-! The bits of CLASS6 (R102). -/

/-- CLASS6[5], SNAP.RD. -/
def keyRd (k : Key) : Bool := k.getLsbD 5
/-- CLASS6[4], PREV_RD. -/
def keyPrevRd (k : Key) : Bool := k.getLsbD 4
/-- CLASS6[3], SNAP.WR. -/
def keyWr (k : Key) : Bool := k.getLsbD 3
/-- CLASS6[2], PREV_WR. -/
def keyPrevWr (k : Key) : Bool := k.getLsbD 2
/-- CLASS6[1], SNAP.MREQ. -/
def keyMreq (k : Key) : Bool := k.getLsbD 1
/-- CLASS6[0], SNAP.IORQ. -/
def keyIorq (k : Key) : Bool := k.getLsbD 0

/-- One row of the classification map: a key matches when `key & mask = pattern` (R115). -/
structure ClassRow where
  pattern : Key
  mask    : Key
  build   : Key → Instr

/-- The nine rows of R115, in their order. -/
def classRows : List ClassRow :=
  [ { pattern := 0x22, mask := 0x32, build := fun k => .memRead (keyWr k) (keyPrevWr k) (keyIorq k) },
    { pattern := 0x21, mask := 0x33, build := fun k => .ioRead (keyWr k) (keyPrevWr k) },
    { pattern := 0x20, mask := 0x33, build := fun k => .rdNone (keyWr k) (keyPrevWr k) },
    { pattern := 0x30, mask := 0x30,
      build := fun k => .rdHeld (keyWr k) (keyPrevWr k) (keyMreq k) (keyIorq k) },
    { pattern := 0x0A, mask := 0x2E, build := fun k => .memWrite (keyPrevRd k) (keyIorq k) },
    { pattern := 0x09, mask := 0x2F, build := fun k => .ioWrite (keyPrevRd k) },
    { pattern := 0x08, mask := 0x2F, build := fun k => .wrNone (keyPrevRd k) },
    { pattern := 0x0C, mask := 0x2C, build := fun k => .wrHeld (keyPrevRd k) (keyMreq k) (keyIorq k) },
    { pattern := 0x00, mask := 0x28,
      build := fun k => .idle (keyPrevRd k) (keyPrevWr k) (keyMreq k) (keyIorq k) } ]

/-- The classification decoder: the first row that matches. Every key matches a row (R121, R189), so
the last arm is reached by none; it repeats the map's last row. -/
def decodeKey (k : Key) : Instr :=
  match classRows.find? (fun r => k &&& r.mask == r.pattern) with
  | some r => r.build k
  | none => .idle (keyPrevRd k) (keyPrevWr k) (keyMreq k) (keyIorq k)

/-- The decoder of both formats. -/
def decode : InstrWord → Decoded
  | .command w => decodeCommand w
  | .key k => .instr (decodeKey k)

/-- The instruction the decoder reads from a word of `nbits` bits, numbered as the opcode table numbers
them: at most 8 bits is a CLASS6 key (bits 5:0; a key has no bits 7:6), more is a CMD40 word. -/
def decodeTableWord (nbits w : Nat) : Option Instr :=
  if nbits ≤ 8 then
    if w < 64 then some (decodeKey (BitVec.ofNat 6 w)) else none
  else if w < 1099511627776 then
    match decodeCommand (BitVec.ofNat 40 w) with
    | .instr i => some i
    | .reserved _ => none
  else none

/-! The encoder. -/

/-- A CMD40 word from its three fields (R103). -/
def cmdWord (op sel : BitVec 4) (arg : BitVec 32) : CmdWord := (op ++ sel ++ arg).cast rfl

/-- A CLASS6 key from its six bits (R102). -/
def keyOf (rd prevRd wr prevWr mreq iorq : Bool) : Key :=
  BitVec.ofBool rd ++ BitVec.ofBool prevRd ++ BitVec.ofBool wr ++ BitVec.ofBool prevWr
    ++ BitVec.ofBool mreq ++ BitVec.ofBool iorq

/-- The word of an instruction, from the opcode column and the fields of R103, R111 and R113, and from
the key patterns of R115. -/
def encode : Instr → InstrWord
  | .init => .command (cmdWord 0x0 0 0)
  | .advance n => .command (cmdWord 0x1 0 (BitVec.ofNat 32 n))
  | .reset => .command (cmdWord 0x2 0 0)
  | .seth k h => .command (cmdWord 0x3 (codeOfKind k) h)
  | .clrh k => .command (cmdWord 0x4 (codeOfKind k) 0)
  | .setdbg m => .command (cmdWord 0x5 0 (m.setWidth 32))
  | .setsink h => .command (cmdWord 0x6 0 h)
  | .clrsink => .command (cmdWord 0x7 0 0)
  | .memRead wr prevWr iorq => .key (keyOf true false wr prevWr true iorq)
  | .ioRead wr prevWr => .key (keyOf true false wr prevWr false true)
  | .rdNone wr prevWr => .key (keyOf true false wr prevWr false false)
  | .rdHeld wr prevWr mreq iorq => .key (keyOf true true wr prevWr mreq iorq)
  | .memWrite prevRd iorq => .key (keyOf false prevRd true false true iorq)
  | .ioWrite prevRd => .key (keyOf false prevRd true false false true)
  | .wrNone prevRd => .key (keyOf false prevRd true false false false)
  | .wrHeld prevRd mreq iorq => .key (keyOf false prevRd true true mreq iorq)
  | .idle prevRd prevWr mreq iorq => .key (keyOf false prevRd false prevWr mreq iorq)

end Sys2Proof
end

