-- ==== Sys2Proof/Machine/Operands.lean ====
section
/-! DEFINITION. The operand forms of the core: the words SNAP40 and PINS30 (30_encoding.md R100, R101), the
key CLASS6 (R102), the address and the port (R104), the handler slots (10_state.md R47), the data pin
drive (R38), and the lines with their drivers and levels (R40, R41). -/

namespace Sys2Proof.Machine

/-- The CPU's pins from a PINS30 word (R101). -/
def pinsOfWord (w : PinWord) : Pins where
  a := w.extractLsb' 0 16
  d := w.extractLsb' 16 8
  rd := w.getLsbD 24
  wr := w.getLsbD 25
  mreq := w.getLsbD 26
  iorq := w.getLsbD 27
  m1 := w.getLsbD 28
  rfsh := w.getLsbD 29

/-- The PINS30 word of the CPU's pins (R101). -/
def wordOfPins (p : Pins) : PinWord :=
  (BitVec.ofBool p.rfsh ++ BitVec.ofBool p.m1 ++ BitVec.ofBool p.iorq ++ BitVec.ofBool p.mreq
    ++ BitVec.ofBool p.wr ++ BitVec.ofBool p.rd ++ p.d ++ p.a).cast rfl

/-- The SNAP40 word of a snapshot, bits 39:34 zero (R100). -/
def wordOfSnap (s : Snap) : SnapWord :=
  ((0 : BitVec 6) ++ BitVec.ofBool s.clk ++ BitVec.ofBool s.nmi ++ BitVec.ofBool s.int
    ++ BitVec.ofBool s.rst ++ BitVec.ofBool s.rfsh ++ BitVec.ofBool s.m1 ++ BitVec.ofBool s.iorq
    ++ BitVec.ofBool s.mreq ++ BitVec.ofBool s.wr ++ BitVec.ofBool s.rd ++ s.d ++ s.a).cast rfl

/-- The snapshot a SNAP40 word holds (R100). -/
def snapOfWord (w : SnapWord) : Snap where
  a := w.extractLsb' 0 16
  d := w.extractLsb' 16 8
  rd := w.getLsbD 24
  wr := w.getLsbD 25
  mreq := w.getLsbD 26
  iorq := w.getLsbD 27
  m1 := w.getLsbD 28
  rfsh := w.getLsbD 29
  rst := w.getLsbD 30
  int := w.getLsbD 31
  nmi := w.getLsbD 32
  clk := w.getLsbD 33

/-- The address from its high-byte and low-byte groups (R83, R104). -/
def addrOfBytes (hi lo : Byte) : Addr := BitVec.cast (by decide : 8 + 8 = 16) (hi ++ lo)

/-- The high-byte group of the address bus (R40). -/
def addrHigh (a : Addr) : Byte := a.extractLsb' 8 8

/-- The low-byte group of the address bus (R40). -/
def addrLow (a : Addr) : Byte := a.extractLsb' 0 8

/-- The I/O port of an address, its low byte; the high byte is discarded (R82, R104). -/
def portOf (a : Addr) : Port := a.extractLsb' 0 8

/-- The classification key of the half-cycle under way (R102). -/
def class6 (s : State) : Key :=
  keyOf s.snap.rd s.prevRd s.snap.wr s.prevWr s.snap.mreq s.snap.iorq

/-- The slot of a kind (R47). -/
def slotOf (t : HandlerTable) : Kind → Slot
  | .memrd => t.memrd
  | .memwr => t.memwr
  | .iord => t.iord
  | .iowr => t.iowr

/-- The handler table with the slot of one kind replaced (R47). -/
def withSlot (t : HandlerTable) (k : Kind) (v : Slot) : HandlerTable :=
  match k with
  | .memrd => { t with memrd := v }
  | .memwr => { t with memwr := v }
  | .iord => { t with iord := v }
  | .iowr => { t with iowr := v }

/-- What the core presents on the data pins: DOUT while DIR = OUT, nothing (`none`, HiZ) while DIR = IN
(R38). -/
def dataDrive (s : State) : Option Byte :=
  match s.dir with
  | .output => some s.dout
  | .input => none

/-- What a read of the data pins returns for a value the CPU (or the floating bus) presents (R171). -/
def readDataPins (s : State) (cpu : Byte) : Byte :=
  match s.dir with
  | .output => s.dout
  | .input => cpu

/-- The party that drives a control line (R40). -/
def lineDriver : ControlLine → Driver
  | .readStrobe | .writeStrobe | .memoryRequest | .ioRequest | .instructionFetch | .refresh => .cpu
  | .reset | .interrupt | .nonMaskableInterrupt | .clock => .core

/-- The electrical level of a control line: the clock is HIGH when asserted, every other line is
active-low (R41, decision D4; log entry 13). -/
def lineLevel (l : ControlLine) (asserted : Bool) : Level :=
  match l with
  | .clock => if asserted then .high else .low
  | .readStrobe | .writeStrobe | .memoryRequest | .ioRequest | .instructionFetch | .refresh
  | .reset | .interrupt | .nonMaskableInterrupt => if asserted then .low else .high

/-- Whether a control line at an electrical level is asserted (R11, R41). -/
def lineAsserted (l : ControlLine) (v : Level) : Bool :=
  match l with
  | .clock => v == .high
  | .readStrobe | .writeStrobe | .memoryRequest | .ioRequest | .instructionFetch | .refresh
  | .reset | .interrupt | .nonMaskableInterrupt => v == .low

/-- The level of each control line in a state: the core's own outputs, and the CPU's strobes, requests
and status lines of the half-cycle under way (R34, R35, R40, R41). DESIGN CHOICE (log entry 19, unsafe): while no
half-cycle is under way, the CPU's lines keep the last half-cycle's values, and those of `emptyEnv` before the
first. -/
def linesOf (s : State) (l : ControlLine) : Level :=
  lineLevel l (match l with
    | .readStrobe => s.env.pinsNow.rd
    | .writeStrobe => s.env.pinsNow.wr
    | .memoryRequest => s.env.pinsNow.mreq
    | .ioRequest => s.env.pinsNow.iorq
    | .instructionFetch => s.env.pinsNow.m1
    | .refresh => s.env.pinsNow.rfsh
    | .reset => s.rst
    | .interrupt => s.int
    | .nonMaskableInterrupt => s.nmi
    | .clock => s.clk)

end Sys2Proof.Machine
end

