-- ==== Sys2Proof/Machine/Ops.lean ====
section
/-! DEFINITION. The operations the meanings share: the stop with a mark (60_exceptions.md R261 to R264), the
acceptance of a host command (R264, R266 e), the half-cycle's steps (40_bus_cycle.md R142 to R153), the
calls to outside parties and the dispatch paths (42_dispatch.md R190 to R198), the emission filter
(44_instrumentation.md R240 to R243), and the reset sequence (43_reset_sequencer.md R220 to R226). -/

namespace Sys2Proof.Machine

/-! The stop: the core has no exception entry and no return from one (R260, R267, R268); a refusal or a
fault records its mark and stops the core (log entry 7). -/

/-- The code of a refusal reason (R262). -/
def reasonCode : Reason → Nat
  | .notConstructed => 1
  | .busy => 2
  | .reinit => 3
  | .reservedEncoding => 4

/-- The code of a fault (R263). -/
def faultNumber : FaultCode → Nat
  | .cntOverflow => 1

/-- Record a mark and stop: MARK <- m, FSM <- STOPPED, nothing else (R261, R267). -/
def stopWith (m : Mark) (s : State) : State := { s with mark := m, fsm := .stopped }

/-- `refuse <Reason>` (R13, R262). -/
def refuse (r : Reason) (s : State) : State := stopWith (.refused r) s

/-- `raise Fault(<Code>)` (R13, R263). -/
def raiseFault (c : FaultCode) (s : State) : State := stopWith (.fault c) s

/-- In FSM = STOPPED no step is enabled (R33): the run has ended with the recorded mark. -/
def noStep (s : State) : Host.Outcome State Fault Refusal :=
  match s.mark with
  | .refused r => .refused (.stopped r)
  | .fault c => .fault (.stopped c)
  | .none => .fault .unmarked

/-- The acceptance of any command but INIT: only in IDLE, the checks in R266 (e)'s order. -/
def acceptIdle (body : State → State) (s : State) : Host.Outcome State Fault Refusal :=
  match s.fsm with
  | .stopped => noStep s
  | .off => .next (refuse .notConstructed s)
  | .run _ _ _ => .next (refuse .busy s)
  | .idle => .next (body s)

/-- The acceptance of INIT: only in OFF (R225, R264). -/
def acceptOff (body : State → State) (s : State) : Host.Outcome State Fault Refusal :=
  match s.fsm with
  | .stopped => noStep s
  | .off => .next (body s)
  | .run _ _ _ => .next (refuse .reinit s)
  | .idle => .next (refuse .reinit s)

/-! Parts of a step that a refusal inside an outside party's call, or a fault, may cut short. -/

/-- A half-cycle step under way: it goes on, or the core has stopped and its remaining steps do not run
(R261, R263, R264). -/
inductive Phase where
  | go (s : State)
  | halt (s : State)
  deriving DecidableEq, Repr

/-- The state a part of a step leaves. -/
def phaseState : Phase → State
  | .go s => s
  | .halt s => s

/-- Run the next part unless the core has stopped. -/
def phaseThen (p : Phase) (f : State → Phase) : Phase :=
  match p with
  | .go s => f s
  | .halt s => .halt s

/-! Calls to outside parties. -/

/-- The reply the outside party gives to the call under way, with `free` the free answer to a call the
environment lists no reply for (R190; log entry 4). -/
def nextReply (free : Byte) (s : State) : Reply :=
  match s.env.replies with
  | r :: _ => r
  | [] => { value := free, command := none }

/-- The state after the call has used up its reply. -/
def dropReply (s : State) : State :=
  { s with env := { s.env with replies := s.env.replies.tail, draws := s.env.draws + 1 } }

/-- Why the core refuses a command that an outside party issues while a run is in progress: the encoding
first, then REINIT for INIT, BUSY for every other command (R264, R266 e). -/
def reentryReason (w : CmdWord) : Reason :=
  match decodeCommand w with
  | .reserved _ => .reservedEncoding
  | .instr i => if i = .init then .reinit else .busy

/-- One synchronous call with reply `r`: it returns, unless the party issued a command, which is refused
and stops the core inside the call (R14, R264; log entry 8). -/
def callWith (r : Reply) (s : State) : Phase :=
  match r.command with
  | none => .go (dropReply s)
  | some w => .halt (refuse (reentryReason w) (dropReply s))

/-- `Log`: append one record to HIST, with CNT as it is at the dispatch (R90). -/
def logRecord (k : Kind) (loc : Location) (v : Byte) (served : Served) (half : Half) (s : State) : State :=
  { s with hist := s.hist ++
      [{ kind := k, loc := loc, value := v, served := served, cnt := s.cnt, half := half }] }

/-- `DOUT <- v` (R193). -/
def latchData (v : Byte) (s : State) : State := { s with dout := v }

/-- `DispatchRead(k, a)` (R191, R193, R194, R198): the installed responder's answer, or 0x00, goes to DOUT
and to HIST. -/
def dispatchRead (k : Kind) (loc : Location) (half : Half) (s : State) : Phase :=
  let slot := slotOf s.ht k
  if slot.inst then
    let r := nextReply (Config.readAnswer k slot.handle loc s.hist s.env.draws) s
    phaseThen (callWith r s) fun s1 =>
      .go (logRecord k loc r.value (.handler slot.handle) half (latchData r.value s1))
  else
    .go (logRecord k loc Config.defaultRead .byDefault half (latchData Config.defaultRead s))

/-- `DispatchWrite(k, a, d)` (R192, R195, R196, R198): the installed responder is called, or nothing is,
and HIST records the write; DOUT is not written. -/
def dispatchWrite (k : Kind) (loc : Location) (d : Byte) (half : Half) (s : State) : Phase :=
  let slot := slotOf s.ht k
  if slot.inst then
    phaseThen (callWith (nextReply 0 s) s) fun s1 =>
      .go (logRecord k loc d (.handler slot.handle) half s1)
  else
    .go (logRecord k loc d .byDefault half s)

/-! The emission filter. -/

/-- `Emit(line)`: call the sink with the line, then append it with the sink's handle to TRACE (R241). -/
def emit (line : TraceLine) (s : State) : Phase :=
  phaseThen (callWith (nextReply 0 s) s) fun s1 =>
    .go { s1 with trace := s1.trace ++ [(s1.sink.handle, line)] }

/-- The lines a cycle that ends in `s` emits, in order: a SUMMARY when the cycle hits (R242), and with
VERBOSE the three pin-dump lines (R243). No emission changes what a later line holds. -/
def cycleLines (s : State) : List TraceLine :=
  if emitHit s.dbg s.snap then
    .summary s.cnt s.snap ::
      (if dbgVerbose s.dbg then
        [.pinIn s.snap, .pinOut s.clk s.rst s.int s.nmi s.dout, .pinDir s.dir]
      else [])
  else []

/-- Emit lines one after the other, each call returning before the next emission (R241). -/
def emitAll (lines : List TraceLine) (s : State) : Phase :=
  match lines with
  | [] => .go s
  | line :: rest => phaseThen (emit line s) (emitAll rest)

/-- `Instrument()`, run once at the end of every cycle after the counter increment: nothing without a
sink (R240). -/
def instrument (s : State) : Phase :=
  if s.sink.inst then emitAll (cycleLines s) s else .go s

/-! The half-cycle's steps. -/

/-- Step 1: drive the clock line to the half-cycle's level (R141). -/
def driveClock (half : Half) (s : State) : State :=
  { s with clk := match half with
      | .hi => true
      | .lo => false }

/-- The CPU's pins of the next half-cycle: the next the environment lists, else free (R30 b, R101). -/
def nextPins (s : State) : Pins :=
  match s.env.pins with
  | p :: _ => p
  | [] => pinsOfWord (Config.freePins s.env.draws)

/-- The CPU presents its pins for this half-cycle. -/
def presentPins (s : State) : State :=
  { s with env := { s.env with
      pinsNow := nextPins s, pins := s.env.pins.tail, draws := s.env.draws + 1 } }

/-- Step 2, `Sample(pins)` (R170, R171): the CPU's lines, the data pins as DIR leaves them readable, and the
read-back of the core's own lines. -/
def sample (s : State) : State :=
  { s with snap :=
      { a := addrOfBytes (addrHigh s.env.pinsNow.a) (addrLow s.env.pinsNow.a)
        d := readDataPins s s.env.pinsNow.d
        rd := s.env.pinsNow.rd
        wr := s.env.pinsNow.wr
        mreq := s.env.pinsNow.mreq
        iorq := s.env.pinsNow.iorq
        m1 := s.env.pinsNow.m1
        rfsh := s.env.pinsNow.rfsh
        rst := s.rst
        int := s.int
        nmi := s.nmi
        clk := s.clk } }

/-- Steps 1 and 2 of a half-cycle (R142). -/
def openHalf (half : Half) (s : State) : State := sample (presentPins (driveClock half s))

/-- Write DIR (R146, R148). -/
def turnBus (d : Dir) (s : State) : State := { s with dir := d }

/-- `ReadData(pins)` (R172): after the turn to IN, the data pins are read once more into SNAP.D. -/
def readData (s : State) : State :=
  { s with snap := { s.snap with d := readDataPins s s.env.pinsNow.d } }

/-- Step 5: record the strobes for the next half-cycle's edges (R178). -/
def latchStrobes (s : State) : State := { s with prevRd := s.snap.rd, prevWr := s.snap.wr }

/-- Step 6: the hold-time direction policy (R150). -/
def holdDirection (s : State) : State := { s with dir := holdDir s.snap }

/-- Write FSM. -/
def setFsm (f : Fsm) (s : State) : State := { s with fsm := f }

/-- The end of a run (R153); after RESET or INIT the reset tail releases the reset line (R222). -/
def finishRun (cont : Cont) (s : State) : State :=
  match cont with
  | .host => { s with fsm := .idle }
  | .reset => { s with rst := false, fsm := .idle }

/-- The counter's increment by exactly 1 (R152). -/
def countCycle (s : State) : State := { s with cnt := s.cnt + 1 }

/-- After a cycle's instrumentation: the run's end, or the HIGH half-cycle of its next cycle (R152). -/
def nextCycle (rem : Nat) (cont : Cont) (s : State) : State :=
  if rem = 1 then finishRun cont s else setFsm (.run (rem - 1) .hi cont) s

/-- `EndOfCycle(rem, cont)` (R152): the overflow check, the increment, the instrumentation, then the next
cycle or the end of the run. -/
def endOfCycle (rem : Nat) (cont : Cont) (s : State) : Phase :=
  if cntAtMax s.params s.cnt then .halt (raiseFault .cntOverflow s)
  else phaseThen (instrument (countCycle s)) fun s1 => .go (nextCycle rem cont s1)

/-- Steps 5 to 7 of a half-cycle (R142). -/
def closeHalf (rem : Nat) (half : Half) (cont : Cont) (s : State) : Phase :=
  let s1 := holdDirection (latchStrobes s)
  match half with
  | .hi => .go (setFsm (.run rem .lo cont) s1)
  | .lo => endOfCycle rem cont s1

/-- A class's half-cycle after sampling: its own part (steps 3 and 4), then steps 5 to 7, enabled exactly
when FSM = RUN (R142, R143; log entry 10). -/
def halfCycle (body : Half → State → Phase) (s : State) : Host.Outcome State Fault Refusal :=
  match s.fsm with
  | .run rem half cont => .next (phaseState (phaseThen (body half s) (closeHalf rem half cont)))
  | .stopped => noStep s
  | .off => .fault .halfCycleNotEnabled
  | .idle => .fault .halfCycleNotEnabled

/-! The reset sequence. -/

/-- The start of the reset sequence: RST asserted, INT and NMI deasserted, a run of RESET_CYCLES cycles
(R220). -/
def startReset (s : State) : State :=
  { s with rst := true, int := false, nmi := false, fsm := .run s.params.resetCycles .hi .reset }

/-- `IdleStep()` (R226). SNAP and FSM are not among the elements it lists. -/
def idleStep (s : State) : State :=
  { s with
      clk := false
      rst := false
      int := false
      nmi := false
      dir := .input
      dout := Config.doutInit
      prevRd := false
      prevWr := false
      cnt := Config.cntInit
      ht := emptyTable
      dbg := 0
      sink := emptySlot
      hist := []
      trace := []
      mark := .none }

/-! The source of the next instruction: the host's queue in OFF and IDLE, the sampled key in RUN. -/

/-- What the next step does. -/
inductive Fetched where
  /-- Run this instruction in this state. -/
  | instr (i : Instr) (s : State)
  /-- The host issued a word that matches no row, in this state. -/
  | reserved (s : State)
  /-- The host issues nothing. -/
  | waiting
  /-- No step is enabled. -/
  | none
  deriving DecidableEq, Repr

/-- The host's oldest command word is taken from its queue. -/
def popCommand (s : State) : State :=
  { s with env := { s.env with commands := s.env.commands.tail } }

/-- The host's next command (R110): FSM is OFF or IDLE. -/
def fetchCommand (s : State) : Fetched :=
  match s.env.commands with
  | [] => .waiting
  | w :: _ =>
    match decodeCommand w with
    | .instr i => .instr i (popCommand s)
    | .reserved _ => .reserved (popCommand s)

/-- The next instruction (R14, R142, R266 d, e): none in STOPPED, in RUN the class of the half-cycle's key
after steps 1 and 2, else the host's next command. -/
def fetch (s : State) : Fetched :=
  match s.fsm with
  | .stopped => .none
  | .run _ half _ => .instr (decodeKey (class6 (openHalf half s))) (openHalf half s)
  | .off => fetchCommand s
  | .idle => fetchCommand s

/-- Place a command word so that the next step runs it: first in the host's queue, with the core where
that command is accepted, OFF for INIT and IDLE for every other (R264). Log entry 5. -/
def placeCommand (w : CmdWord) (s : State) : State :=
  { s with
      fsm := if decodeCommand w = .instr .init then .off else .idle
      env := { s.env with commands := w :: s.env.commands } }

/-- The pins whose sample gives a key's SNAP bits; address, data, M1 and RFSH are 0. -/
def pinsOfKey (k : Key) : Pins where
  a := 0
  d := 0
  rd := keyRd k
  wr := keyWr k
  mreq := keyMreq k
  iorq := keyIorq k
  m1 := false
  rfsh := false

/-- Place a classification key so that the next half-cycle has it: the latches, the CPU's next pins, and,
where no run is in progress, a run of one cycle. Log entry 5. -/
def placeKey (k : Key) (s : State) : State :=
  { s with
      fsm := match s.fsm with
        | .run rem half cont => .run rem half cont
        | .off => .run 1 .hi .host
        | .idle => .run 1 .hi .host
        | .stopped => .run 1 .hi .host
      prevRd := keyPrevRd k
      prevWr := keyPrevWr k
      env := { s.env with pins := pinsOfKey k :: s.env.pins } }

/-- A word numbered as the opcode table numbers it, placed where the next step takes its instruction. -/
def placeTableWord (nbits w : Nat) (s : State) : State :=
  if nbits ≤ 8 then placeKey (BitVec.ofNat 6 w) s else placeCommand (BitVec.ofNat 40 w) s

end Sys2Proof.Machine
end

