-- ==== Sys2Proof/Machine/Debug.lean ====
section
/-! DEFINITION. The commands that configure the emission filter: SETDBG, SETSINK and CLRSINK
(44_instrumentation.md R245 to R247). -/

namespace Sys2Proof.Machine

/-- SETDBG m (R245). -/
def execSetdbg (m : DbgMask) (s : State) : Host.Outcome State Fault Refusal :=
  acceptIdle (fun s => { s with dbg := m }) s

/-- SETSINK h (R246). -/
def execSetsink (h : Handle) (s : State) : Host.Outcome State Fault Refusal :=
  acceptIdle (fun s => { s with sink := { inst := true, handle := h } }) s

/-- CLRSINK (R247). -/
def execClrsink (s : State) : Host.Outcome State Fault Refusal :=
  acceptIdle (fun s => { s with sink := emptySlot }) s

end Sys2Proof.Machine
end

