-- ==== Sys2Proof/Machine/Handlers.lean ====
section
/-! DEFINITION. The commands that write the handler table: SETH and CLRH (42_dispatch.md R200, R201). -/

namespace Sys2Proof.Machine

/-- SETH k, h (R200). -/
def execSeth (k : Kind) (h : Handle) (s : State) : Host.Outcome State Fault Refusal :=
  acceptIdle (fun s => { s with ht := withSlot s.ht k { inst := true, handle := h } }) s

/-- CLRH k (R201). -/
def execClrh (k : Kind) (s : State) : Host.Outcome State Fault Refusal :=
  acceptIdle (fun s => { s with ht := withSlot s.ht k emptySlot }) s

end Sys2Proof.Machine
end

