-- ==== Sys2Proof/Machine/ReadClasses.lean ====
section
/-! DEFINITION. The four classes of the read branch (40_bus_cycle.md R146, R147; 41_classification.md R180 to
R183). The state a meaning takes has run steps 1 and 2 of the half-cycle (`openHalf`). -/

namespace Sys2Proof.Machine

/-- MEM_READ (R180): DIR <- OUT, then DispatchRead(MEMRD, SNAP.A). -/
def execMemRead (s : State) : Host.Outcome State Fault Refusal :=
  halfCycle (fun half s => dispatchRead .memrd (.mem s.snap.a) half (turnBus .output s)) s

/-- IO_READ (R181): DIR <- OUT, then DispatchRead(IORD, SNAP.A[7:0]). -/
def execIoRead (s : State) : Host.Outcome State Fault Refusal :=
  halfCycle (fun half s => dispatchRead .iord (.port (portOf s.snap.a)) half (turnBus .output s)) s

/-- RD_NONE (R182): DIR <- OUT, nothing dispatched. -/
def execRdNone (s : State) : Host.Outcome State Fault Refusal :=
  halfCycle (fun _ s => .go (turnBus .output s)) s

/-- RD_HELD (R183): nothing dispatched. -/
def execRdHeld (s : State) : Host.Outcome State Fault Refusal :=
  halfCycle (fun _ s => .go s) s

end Sys2Proof.Machine
end

