-- ==== Sys2Proof/Machine/Sequencer.lean ====
section
/-! DEFINITION. The commands that start a run: INIT (43_reset_sequencer.md R225), ADVANCE (40_bus_cycle.md
R140) and RESET (43_reset_sequencer.md R220). -/

namespace Sys2Proof.Machine

/-- INIT (R225): the idle step, then the start of the reset sequence. -/
def execInit (s : State) : Host.Outcome State Fault Refusal :=
  acceptOff (fun s => startReset (idleStep s)) s

/-- ADVANCE n (R140): n = 0 changes nothing, else the run of n cycles starts. -/
def execAdvance (n : Nat) (s : State) : Host.Outcome State Fault Refusal :=
  acceptIdle (fun s => if n = 0 then s else setFsm (.run n .hi .host) s) s

/-- RESET (R220). -/
def execReset (s : State) : Host.Outcome State Fault Refusal :=
  acceptIdle startReset s

end Sys2Proof.Machine
end

