-- ==== Sys2Proof/Machine/WriteClasses.lean ====
section
/-! DEFINITION. The four classes of the write branch and the class with no strobe (40_bus_cycle.md R148;
41_classification.md R184 to R188). The state a meaning takes has run steps 1 and 2 of the half-cycle
(`openHalf`). -/

namespace Sys2Proof.Machine

/-- The write edge's switch: DIR <- IN, then ReadData (R148, R172). -/
def takeWriteData (s : State) : State := readData (turnBus .input s)

/-- MEM_WRITE (R184): DispatchWrite(MEMWR, SNAP.A, d) with d the data read after the switch. -/
def execMemWrite (s : State) : Host.Outcome State Fault Refusal :=
  halfCycle (fun half s =>
    let s1 := takeWriteData s
    dispatchWrite .memwr (.mem s1.snap.a) s1.snap.d half s1) s

/-- IO_WRITE (R185): DispatchWrite(IOWR, SNAP.A[7:0], d). -/
def execIoWrite (s : State) : Host.Outcome State Fault Refusal :=
  halfCycle (fun half s =>
    let s1 := takeWriteData s
    dispatchWrite .iowr (.port (portOf s1.snap.a)) s1.snap.d half s1) s

/-- WR_NONE (R186): the switch and the data read, nothing dispatched. -/
def execWrNone (s : State) : Host.Outcome State Fault Refusal :=
  halfCycle (fun _ s => .go (takeWriteData s)) s

/-- WR_HELD (R187): nothing dispatched. -/
def execWrHeld (s : State) : Host.Outcome State Fault Refusal :=
  halfCycle (fun _ s => .go s) s

/-- IDLE (R188): nothing dispatched. -/
def execIdle (s : State) : Host.Outcome State Fault Refusal :=
  halfCycle (fun _ s => .go s) s

end Sys2Proof.Machine
end

