-- ==== Sys2Proof/Machine/Dispatch.lean ====
section
/-! DEFINITION. One arm per instruction. A class's open key bits are not examined by its meaning (R180 to
R188), so its arm passes the state alone. -/

namespace Sys2Proof.Machine

def exec (i : Instr) (s : State) : Host.Outcome State Fault Refusal :=
  match i with
  | .init => Sys2Proof.Machine.execInit s
  | .advance n => Sys2Proof.Machine.execAdvance n s
  | .reset => Sys2Proof.Machine.execReset s
  | .seth k h => Sys2Proof.Machine.execSeth k h s
  | .clrh k => Sys2Proof.Machine.execClrh k s
  | .setdbg m => Sys2Proof.Machine.execSetdbg m s
  | .setsink h => Sys2Proof.Machine.execSetsink h s
  | .clrsink => Sys2Proof.Machine.execClrsink s
  | .memRead _ _ _ => Sys2Proof.Machine.execMemRead s
  | .ioRead _ _ => Sys2Proof.Machine.execIoRead s
  | .rdNone _ _ => Sys2Proof.Machine.execRdNone s
  | .rdHeld _ _ _ _ => Sys2Proof.Machine.execRdHeld s
  | .memWrite _ _ => Sys2Proof.Machine.execMemWrite s
  | .ioWrite _ => Sys2Proof.Machine.execIoWrite s
  | .wrNone _ => Sys2Proof.Machine.execWrNone s
  | .wrHeld _ _ _ => Sys2Proof.Machine.execWrHeld s
  | .idle _ _ _ _ => Sys2Proof.Machine.execIdle s

end Sys2Proof.Machine
end

