-- ==== Sys2Proof/Machine/Step.lean ====
section
/-! DEFINITION. One step of the core: a host command or a half-cycle (00_scope.md R14). -/

namespace Sys2Proof.Machine

/-- One step (R14, R33, R110, R142): run the instruction `fetch` finds; refuse a reserved word; keep the
state while the host issues nothing (R274); in STOPPED no step is enabled (R33). -/
def step (s : State) : Host.Outcome State Fault Refusal :=
  match fetch s with
  | .instr i s1 => exec i s1
  | .reserved s1 => .next (refuse .reservedEncoding s1)
  | .waiting => .next s
  | .none => noStep s

/-- `s` with a table word placed so that the next step runs it (log entry 5). -/
def State.withFetchWord (s : State) (nbits w : Nat) : State := placeTableWord nbits w s

end Sys2Proof.Machine
end

