-- ==== Sys2Proof/Machine/Assembler.lean ====
section
/-! DEFINITION. The textual syntax of host commands (30_encoding.md R130): one command on a line,
case-insensitive mnemonics and names, numbers in decimal or with a 0x prefix. Log entry 14. -/

namespace Sys2Proof.Machine

/-- A letter in upper case; every other character as it is. -/
def upperChar (c : Char) : Char :=
  if 97 ≤ c.toNat ∧ c.toNat ≤ 122 then Char.ofNat (c.toNat - 32) else c

/-- Put a finished word (held in reverse) before the tokens that follow it. -/
def flushWord (word : List Char) (rest : List (List Char)) : List (List Char) :=
  if word.isEmpty then rest else word.reverse :: rest

/-- The tokens of a line, in upper case: words, commas and bars, with blanks between them dropped. -/
def tokensOf : List Char → List Char → List (List Char)
  | [], word => flushWord word []
  | c :: cs, word =>
    if c = ' ' ∨ c = '\t' then flushWord word (tokensOf cs [])
    else if c = ',' ∨ c = '|' then flushWord word ([c] :: tokensOf cs [])
    else tokensOf cs (upperChar c :: word)

/-- The value of a digit in upper case, below the base. -/
def digitOf (base : Nat) (c : Char) : Option Nat :=
  let v := if 48 ≤ c.toNat ∧ c.toNat ≤ 57 then c.toNat - 48
    else if 65 ≤ c.toNat ∧ c.toNat ≤ 70 then c.toNat - 55 else base
  if v < base then some v else none

/-- The value of a string of digits, most significant first, after `acc`. -/
def digitsOf (base : Nat) : List Char → Nat → Option Nat
  | [], acc => some acc
  | c :: cs, acc =>
    match digitOf base c with
    | some v => digitsOf base cs (acc * base + v)
    | none => none

/-- A number token: decimal, or hexadecimal with the 0x prefix. -/
def numberOf (t : List Char) : Option Nat :=
  match t with
  | [] => none
  | ['0', 'X'] => none
  | '0' :: 'X' :: ds => digitsOf 16 ds 0
  | ds => digitsOf 10 ds 0

/-- A u32 operand: a handle or a count within ADV_MAX. -/
def u32Of (t : List Char) : Option Nat :=
  match numberOf t with
  | some n => if n ≤ Config.advMax then some n else none
  | none => none

/-- A kind token: MEMRD, MEMWR, IORD or IOWR. -/
def kindOfToken (t : List Char) : Option Kind :=
  if t = ['M', 'E', 'M', 'R', 'D'] then some .memrd
  else if t = ['M', 'E', 'M', 'W', 'R'] then some .memwr
  else if t = ['I', 'O', 'R', 'D'] then some .iord
  else if t = ['I', 'O', 'W', 'R'] then some .iowr
  else none

/-- A flag name of SETDBG's list. -/
def flagOfToken (t : List Char) : Option DbgMask :=
  if t = ['C', 'Y', 'C', 'L', 'E'] then some 1
  else if t = ['I', 'O'] then some 2
  else if t = ['M', 'E', 'M'] then some 4
  else if t = ['V', 'E', 'R', 'B', 'O', 'S', 'E'] then some 8
  else none

/-- A list of flag names with bars between them. -/
def flagsOf : List (List Char) → Option DbgMask
  | [t] => flagOfToken t
  | t :: ['|'] :: rest =>
    match flagOfToken t, flagsOf rest with
    | some m, some n => some (m ||| n)
    | _, _ => none
  | _ => none

/-- SETDBG's operand: a number 0 to 15, NONE for 0, or a list of flags. -/
def maskOf (ts : List (List Char)) : Option DbgMask :=
  match ts with
  | [t] =>
    if t = ['N', 'O', 'N', 'E'] then some 0
    else match numberOf t with
      | some n => if n < 16 then some (BitVec.ofNat 4 n) else none
      | none => flagsOf [t]
  | _ => flagsOf ts

/-- The command of a line's tokens, by the rows of R130. -/
def commandOfTokens (ts : List (List Char)) : Option Instr :=
  match ts with
  | [] => none
  | m :: ops =>
    if m = ['I', 'N', 'I', 'T'] then (if ops = [] then some .init else none)
    else if m = ['R', 'E', 'S', 'E', 'T'] then (if ops = [] then some .reset else none)
    else if m = ['C', 'L', 'R', 'S', 'I', 'N', 'K'] then (if ops = [] then some .clrsink else none)
    else if m = ['A', 'D', 'V', 'A', 'N', 'C', 'E'] then
      match ops with
      | [n] => (u32Of n).map .advance
      | _ => none
    else if m = ['S', 'E', 'T', 'S', 'I', 'N', 'K'] then
      match ops with
      | [h] => (u32Of h).map fun n => .setsink (BitVec.ofNat 32 n)
      | _ => none
    else if m = ['C', 'L', 'R', 'H'] then
      match ops with
      | [k] => (kindOfToken k).map .clrh
      | _ => none
    else if m = ['S', 'E', 'T', 'H'] then
      match ops with
      | [k, [','], h] =>
        match kindOfToken k, u32Of h with
        | some k, some n => some (.seth k (BitVec.ofNat 32 n))
        | _, _ => none
      | _ => none
    else if m = ['S', 'E', 'T', 'D', 'B', 'G'] then (maskOf ops).map .setdbg
    else none

/-- The command a line of text spells (R130). -/
def assemble (line : List Char) : Option Instr := commandOfTokens (tokensOf line [])

end Sys2Proof.Machine
end

