-- ==== Sys2Proof/Machine/System.lean ====
section
/-! DEFINITION. Several cores (60_exceptions.md R272): each has its own copy of every state element, and
they share none. -/

namespace Sys2Proof.Machine

/-- One step of core number `k` of a list of cores; `none` where there is no such core. The other cores
stand as they are (R272; log entry 17). -/
def stepOne (k : Nat) (cores : List State) : Option (Host.Outcome (List State) Fault Refusal) :=
  match cores[k]? with
  | none => none
  | some s =>
    match step s with
    | .next t => some (.next (cores.set k t))
    | .fault r => some (.fault r)
    | .refused r => some (.refused r)

end Sys2Proof.Machine
end

