-- ==== Sys2Proof/Safety.lean ====
section
/-! DEFINITION. The terms in which claims are stated: the premise that no outside party re-enters the core
(70_reset_and_hazards.md R298), what one half-cycle records, emits and leaves (40_bus_cycle.md R142 to
R155; 42_dispatch.md R197; 44_instrumentation.md R244), and the invariant of the machine. -/

namespace Sys2Proof.Machine

/-- No responder or sink issues a host command in any call to come (R298). -/
def NoReentry (s : State) : Prop := ∀ r ∈ s.env.replies, r.command = none

/-- The steps of the half-cycle that a whole run of them is made of, as a run of the core. -/
abbrev runSteps (n : Nat) (s : State) : Host.Outcome State Fault Refusal := Host.Core.run Sys2Proof.core n s

/-- The value a read of kind `k` at a location yields, and who serves it: the responder's answer when one
is installed, else 0x00 by default (R193, R194, R198). -/
def readOutcome (k : Kind) (loc : Location) (s : State) : Byte × Served :=
  if (slotOf s.ht k).inst then
    ((nextReply (Config.readAnswer k (slotOf s.ht k).handle loc s.hist s.env.draws) s).value,
      .handler (slotOf s.ht k).handle)
  else (0x00, .byDefault)

/-- Who serves a write of kind `k` (R195, R196, R198). -/
def writeServed (k : Kind) (s : State) : Served :=
  if (slotOf s.ht k).inst then .handler (slotOf s.ht k).handle else .byDefault

/-- The record a half-cycle appends to HIST, by the strobes and requests of its snapshot: the rows of
R197, read before write (R176), memory before I/O (R177). -/
def recordOf (half : Half) (s : State) : List HistRecord :=
  if s.snap.rd then
    if s.prevRd then []
    else if s.snap.mreq then
      [⟨.memrd, .mem s.snap.a, (readOutcome .memrd (.mem s.snap.a) s).1,
        (readOutcome .memrd (.mem s.snap.a) s).2, s.cnt, half⟩]
    else if s.snap.iorq then
      [⟨.iord, .port (portOf s.snap.a), (readOutcome .iord (.port (portOf s.snap.a)) s).1,
        (readOutcome .iord (.port (portOf s.snap.a)) s).2, s.cnt, half⟩]
    else []
  else if s.snap.wr then
    if s.prevWr then []
    else if s.snap.mreq then
      [⟨.memwr, .mem s.snap.a, s.env.pinsNow.d, writeServed .memwr s, s.cnt, half⟩]
    else if s.snap.iorq then
      [⟨.iowr, .port (portOf s.snap.a), s.env.pinsNow.d, writeServed .iowr s, s.cnt, half⟩]
    else []
  else []

/-- The calls made to a slot by one dispatch to it: one if a responder is installed, else none (R191, R192,
R198). -/
def slotCalls (v : Slot) : Nat := if v.inst then 1 else 0

/-- The responder calls of a half-cycle: one if its record is served by a responder, else none (R85 c,
R197). -/
def responderCalls (half : Half) (s : State) : Nat :=
  ((recordOf half s).filter fun r => r.served != .byDefault).length

/-- DOUT after steps 3 and 4 of a half-cycle: the value of a dispatched read, else unchanged (R193, R194). -/
def dataAfter (s : State) : Byte :=
  if s.snap.rd then
    if s.prevRd then s.dout
    else if s.snap.mreq then (readOutcome .memrd (.mem s.snap.a) s).1
    else if s.snap.iorq then (readOutcome .iord (.port (portOf s.snap.a)) s).1
    else s.dout
  else s.dout

/-- SNAP after steps 3 and 4 of a half-cycle: on a write edge its D is the CPU's value (R172). -/
def snapAfter (s : State) : Snap :=
  if writeEdge s.snap s.prevWr then { s.snap with d := s.env.pinsNow.d } else s.snap

/-- The lines a cycle that ends in `t` hands to the sink: none without a sink; one when the CYCLE flag is
set, or the IO flag with I/O-request, or the MEM flag with memory-request; three more with VERBOSE
(R240, R244). `rst` is the level of RST before the reset tail. -/
def linesAtEnd (rst : Bool) (t : State) : List (Handle × TraceLine) :=
  if t.sink.inst ∧ (t.dbg.getLsbD 0 ∨ (t.dbg.getLsbD 1 ∧ t.snap.iorq) ∨ (t.dbg.getLsbD 2 ∧ t.snap.mreq)) then
    (t.sink.handle, .summary t.cnt t.snap) ::
      (if t.dbg.getLsbD 3 then
        [(t.sink.handle, .pinIn t.snap), (t.sink.handle, .pinOut t.clk rst t.int t.nmi t.dout),
          (t.sink.handle, .pinDir t.dir)]
      else [])
  else []

/-- FSM after a half-cycle (R33, R142, R152, R153). -/
def fsmAfter (rem : Nat) (half : Half) (cont : Cont) : Fsm :=
  match half with
  | .hi => .run rem .lo cont
  | .lo => if rem = 1 then .idle else .run (rem - 1) .hi cont

/-- RST after a half-cycle: released by the reset tail, else as it was (R222). -/
def rstAfter (rem : Nat) (half : Half) (cont : Cont) (rst : Bool) : Bool :=
  match half, cont with
  | .lo, .reset => if rem = 1 then false else rst
  | _, _ => rst

/-- What every half-cycle of a run leaves, from the sampled state `s` to `t`, whatever its class: steps 5
to 7 (R150, R152, R178, R240) and the frame, that is, the elements no half-cycle writes. DOUT, HIST and
SNAP.D are the class's own and are not spoken of here. `calls` is the number of responder calls the
half-cycle makes: each call, and each line handed to the sink, uses up exactly one listed reply. The last
four fields speak of the environment, which is the model's form of the outside (log entries 1, 3, 4). -/
structure HalfCycleEnds (rem : Nat) (half : Half) (cont : Cont) (calls : Nat) (s t : State) : Prop where
  fsm    : t.fsm = fsmAfter rem half cont
  prevRd : t.prevRd = s.snap.rd
  prevWr : t.prevWr = s.snap.wr
  dir    : t.dir = if s.snap.rd then .output else .input
  cnt    : t.cnt = if half = .lo then s.cnt + 1 else s.cnt
  trace  : t.trace = if half = .lo then s.trace ++ linesAtEnd s.rst t else s.trace
  rst    : t.rst = rstAfter rem half cont s.rst
  clk    : t.clk = s.clk
  int    : t.int = s.int
  nmi    : t.nmi = s.nmi
  ht     : t.ht = s.ht
  dbg    : t.dbg = s.dbg
  sink   : t.sink = s.sink
  mark   : t.mark = s.mark
  params : t.params = s.params
  commands : t.env.commands = s.env.commands
  pins   : t.env.pins = s.env.pins
  pinsNow : t.env.pinsNow = s.env.pinsNow
  replies : t.env.replies =
    s.env.replies.drop (calls + if half = .lo then (linesAtEnd s.rst t).length else 0)

/-- The premises under which a sampled half-cycle completes: it is the half-cycle of a run (R142), its key
is the class's (R102), no outside party re-enters (R298), and, at the end of a cycle, the counter has a
next value (R152). -/
structure HalfCycleRuns (rem : Nat) (half : Half) (cont : Cont) (key : Key) (s : State) : Prop where
  fsm       : s.fsm = .run rem half cont
  key       : class6 s = key
  noReentry : NoReentry s
  room      : half = .lo → s.cnt < s.params.cntMax

/-- A slot that holds no responder holds handle 0 (R47, R49, decision D27). -/
def SlotCanonical (v : Slot) : Prop := v.inst = false → v.handle = 0

/-- A history record goes to the space of its kind (R80, R90). -/
def RecordTyped (r : HistRecord) : Prop :=
  match r.kind, r.loc with
  | .memrd, .mem _ => True
  | .memwr, .mem _ => True
  | .iord, .port _ => True
  | .iowr, .port _ => True
  | _, _ => False

/-- What holds of a constructed core that has not stopped (FSM IDLE or RUN). -/
structure LiveInv (s : State) : Prop where
  /-- INT and NMI are never asserted (R35, R265). -/
  int : s.int = false
  nmi : s.nmi = false
  /-- The counter is within its width, at or above the sentinel (R42, R44). -/
  cntLow  : -1 ≤ s.cnt
  cntHigh : s.cnt ≤ s.params.cntMax
  /-- The direction is that of the last half-cycle's read-strobe (R155). -/
  dir : s.dir = if s.prevRd then .output else .input
  /-- Empty slots are canonical (R47, R49). -/
  memrd : SlotCanonical s.ht.memrd
  memwr : SlotCanonical s.ht.memwr
  iord  : SlotCanonical s.ht.iord
  iowr  : SlotCanonical s.ht.iowr
  sink  : SlotCanonical s.sink
  /-- Every record of HIST is typed (R90). -/
  hist : ∀ r ∈ s.hist, RecordTyped r

/-- What FSM says of the clock, of the reset line, of `rem` and of MARK (R33, R53, R141, R159, R222). -/
def FsmInv (s : State) : Prop :=
  match s.fsm with
  | .off => s.mark = .none
  | .idle => s.mark = .none ∧ s.clk = false ∧ s.rst = false
  | .run rem half cont =>
    s.mark = .none ∧ 1 ≤ rem ∧ rem ≤ Config.advMax ∧ s.clk = (half == .lo) ∧ s.rst = (cont == .reset)
  | .stopped => s.mark ≠ .none

/-- The invariant of the machine. Before construction R55 leaves the elements unspecified and in STOPPED
no step is enabled, so `LiveInv` is asked in IDLE and RUN only. -/
structure Inv (s : State) : Prop where
  params : s.params.valid
  fsm    : FsmInv s
  live   : s.fsm ≠ .off → s.fsm ≠ .stopped → LiveInv s

end Sys2Proof.Machine
end

