-- ==== Sys2Proof/Certificates/Slice0/Obligations.lean ====
section
/-! DEFINITION. The statements for the provers, from the numbered rules of the spec. -/

open Sys2Proof Sys2Proof.Machine

/-! ## Encodings -/

/-- Decode and encode agree: every well-formed instruction, with every operand at every value its encoding
admits, is read back from its word (R103, R105, R111, R113, R115). -/
def Obligations.DecodeOfEncodeIsTheInstruction : Prop :=
  ∀ i : Instr, i.wellFormed = true → decode (encode i) = .instr i

/-- Each accepted word means one thing: the instruction the decoder reads is well formed and its encoding
is that word again (R110, R111, R115, decision D23). -/
def Obligations.EncodeOfDecodeIsTheWord : Prop :=
  ∀ (w : InstrWord) (i : Instr), decode w = .instr i → i.wellFormed = true ∧ encode i = w

/-- R120: a CMD40 word is refused exactly when its opcode is 0x8 to 0xF, or SETH's or CLRH's selector is 4
to 15, or the selector of INIT, ADVANCE, RESET, SETDBG, SETSINK or CLRSINK is not 0, or the operand of
INIT, RESET, CLRH or CLRSINK is not 0, or SETDBG's operand has a bit above 3:0. Fields as in R103. In
FSM = OFF or IDLE such a word is refused RESERVED_ENCODING before FSM is tested (R266 e), and only MARK and FSM
change (R261, R262). That the word is taken from a queue in env is the model's form (log entry 1). -/
def Obligations.ReservedEncodingsAreExactlyThoseListed : Prop :=
  ∀ w : CmdWord,
    let op := (w.extractLsb' 36 4).toNat
    let sel := (w.extractLsb' 32 4).toNat
    let arg := (w.extractLsb' 0 32).toNat
    ((∃ why, decodeCommand w = .reserved why) ↔
      8 ≤ op ∨
      ((op = 3 ∨ op = 4) ∧ 4 ≤ sel) ∨
      ((op = 0 ∨ op = 1 ∨ op = 2 ∨ op = 5 ∨ op = 6 ∨ op = 7) ∧ sel ≠ 0) ∨
      ((op = 0 ∨ op = 2 ∨ op = 4 ∨ op = 7) ∧ arg ≠ 0) ∨
      (op = 5 ∧ 16 ≤ arg)) ∧
    ∀ (s : State) (ws : List CmdWord) (why : Reserved), s.fsm = .off ∨ s.fsm = .idle →
      s.env.commands = w :: ws → decodeCommand w = .reserved why →
      step s = .next { s with
        fsm := .stopped, mark := .refused .reservedEncoding, env := { s.env with commands := ws } }

/-- R189: the nine patterns of R115 are pairwise disjoint and cover all 64 keys (each key matches exactly
one row, and the row's class is the one the decoder gives), and the row sizes are those listed. -/
def Obligations.EveryKeyHasExactlyOneClass : Prop :=
  (∀ k : Key, (classRows.filter fun r => k &&& r.mask == r.pattern).map (fun r => r.build k) = [decodeKey k]) ∧
  classRows.map (fun r => ((List.range 64).filter fun n => BitVec.ofNat 6 n &&& r.mask == r.pattern).length)
    = [8, 4, 4, 16, 4, 2, 2, 8, 16]

/-- The class of a half-cycle's key is the one the branches of R175 compute from SNAP, PREV_RD and PREV_WR,
with read before write (R176) and memory before I/O (R177). -/
def Obligations.ClassOfTheKeyIsTheBranchStructure : Prop :=
  ∀ s : State, decodeKey (class6 s) = classify s.snap s.prevRd s.prevWr

/-- Words written out from R111 and R115 (the examples of R130 and the test vectors V1, V2, V3, V5, V7)
decode to the instructions they stand for. -/
def Obligations.WrittenOutWordsDecode : Prop :=
  decodeTableWord 40 0x0000000000 = some .init ∧
  decodeTableWord 40 0x1000000003 = some (.advance 3) ∧
  decodeTableWord 40 0x2000000000 = some .reset ∧
  decodeTableWord 40 0x3300000007 = some (.seth .iowr 7) ∧
  decodeTableWord 40 0x4100000000 = some (.clrh .memwr) ∧
  decodeTableWord 40 0x500000000A = some (.setdbg 0b1010) ∧
  decodeTableWord 40 0x6000000009 = some (.setsink 9) ∧
  decodeTableWord 40 0x7000000000 = some .clrsink ∧
  decodeTableWord 8 0x22 = some (.memRead false false false) ∧
  decodeTableWord 8 0x21 = some (.ioRead false false) ∧
  decodeTableWord 8 0x20 = some (.rdNone false false) ∧
  decodeTableWord 8 0x32 = some (.rdHeld false false true false) ∧
  decodeTableWord 8 0x0A = some (.memWrite false false) ∧
  decodeTableWord 8 0x09 = some (.ioWrite false) ∧
  decodeTableWord 8 0x08 = some (.wrNone false) ∧
  decodeTableWord 8 0x0E = some (.wrHeld false true false) ∧
  decodeTableWord 8 0x16 = some (.idle true true true false)

/-- R100: the SNAP40 word of a snapshot holds A in bits 15:0, D in 23:16, the control bits at their places,
and 0 in bits 39:34; the snapshot is read back from it. -/
def Obligations.SnapshotWordLayout : Prop :=
  ∀ s : Snap,
    (wordOfSnap s).extractLsb' 0 16 = s.a ∧ (wordOfSnap s).extractLsb' 16 8 = s.d ∧
    (wordOfSnap s).getLsbD 24 = s.rd ∧ (wordOfSnap s).getLsbD 25 = s.wr ∧
    (wordOfSnap s).getLsbD 26 = s.mreq ∧ (wordOfSnap s).getLsbD 27 = s.iorq ∧
    (wordOfSnap s).getLsbD 28 = s.m1 ∧ (wordOfSnap s).getLsbD 29 = s.rfsh ∧
    (wordOfSnap s).getLsbD 30 = s.rst ∧ (wordOfSnap s).getLsbD 31 = s.int ∧
    (wordOfSnap s).getLsbD 32 = s.nmi ∧ (wordOfSnap s).getLsbD 33 = s.clk ∧
    (wordOfSnap s).extractLsb' 34 6 = 0 ∧ snapOfWord (wordOfSnap s) = s

/-- R101: PINS30 and the CPU's pins are the same data, with bits 29:0 of the SNAP40 layout. -/
def Obligations.PinWordLayout : Prop :=
  (∀ p : Pins, pinsOfWord (wordOfPins p) = p) ∧ (∀ w : PinWord, wordOfPins (pinsOfWord w) = w) ∧
  ∀ (p : Pins) (s : Snap), s.a = p.a → s.d = p.d → s.rd = p.rd → s.wr = p.wr → s.mreq = p.mreq →
    s.iorq = p.iorq → s.m1 = p.m1 → s.rfsh = p.rfsh → (wordOfSnap s).extractLsb' 0 30 = wordOfPins p

/-! ## One step -/

/-- A step between runs: in FSM = OFF or IDLE, when the host's oldest word decodes to an instruction, the
step is that instruction's meaning (R14, R110). The queue in env, from which the step takes the word, is the
model's form (log entry 1). -/
def Obligations.StepRunsTheHostsCommand : Prop :=
  ∀ (s : State) (w : CmdWord) (ws : List CmdWord) (i : Instr), s.fsm = .off ∨ s.fsm = .idle →
    s.env.commands = w :: ws → decodeCommand w = .instr i →
    step s = exec i { s with env := { s.env with commands := ws } }

/-- A step of a run (R142): the clock is driven to the half's level (R141), the CPU's next pins are sampled
(R170: the CPU's lines; D as DIR leaves the data pins readable, R171; the read-back of the core's own
lines), and the step is the meaning of the class that the CLASS6 key decodes to, in the sampled state. That the step
takes the pins from a list in env and counts the draw, and that steps 1 and 2 stand in the step and not in the class's
meaning, is the model's form (log entries 3, 10). -/
def Obligations.StepRunsTheHalfCyclesClass : Prop :=
  ∀ (s : State) (rem : Nat) (half : Half) (cont : Cont) (p : Pins) (ps : List Pins),
    s.fsm = .run rem half cont → s.env.pins = p :: ps →
    ∃ u : State,
      u = { s with
        clk := half == .hi
        snap := { a := p.a, d := if s.dir = .output then s.dout else p.d, rd := p.rd, wr := p.wr,
                  mreq := p.mreq, iorq := p.iorq, m1 := p.m1, rfsh := p.rfsh,
                  rst := s.rst, int := s.int, nmi := s.nmi, clk := half == .hi }
        env := { s.env with pinsNow := p, pins := ps, draws := s.env.draws + 1 } } ∧
      step s = exec (decodeKey (keyOf p.rd s.prevRd p.wr s.prevWr p.mreq p.iorq)) u

/-- Past the pins the environment lists, a half-cycle's pins are the free PINS30 word of that draw: a step
of a run is never short of an input (R30 b, R101). -/
def Obligations.UnlistedPinsAreFree : Prop :=
  ∀ (s : State) (rem : Nat) (half : Half) (cont : Cont), s.fsm = .run rem half cont → s.env.pins = [] →
    step s = step { s with env := { s.env with pins := [pinsOfWord (Config.freePins s.env.draws)] } }

/-- R33, R261: in STOPPED no step is enabled: neither the step nor any meaning has a next state. -/
def Obligations.StoppedEnablesNoStep : Prop :=
  ∀ s t : State, s.fsm = .stopped → step s ≠ .next t ∧ ∀ i : Instr, exec i s ≠ .next t

/-- R274: while the host issues nothing, in IDLE no half-cycle runs and all state is kept. That the model has a step
there, which keeps the state, and that it does so in OFF too is the model's choice (log entry 1). -/
def Obligations.IdleWithoutCommandKeepsState : Prop :=
  ∀ s : State, s.fsm = .off ∨ s.fsm = .idle → s.env.commands = [] → step s = .next s

/-! ## Host commands -/

/-- ADVANCE n: accepted in IDLE, where n = 0 changes nothing and n > 0 enters RUN(n, HI, HOST); refused
NOT_CONSTRUCTED in OFF and BUSY in RUN; no step in STOPPED (R140). -/
def Obligations.AdvanceStartsARun : Prop :=
  ∀ (n : Nat) (s : State),
    (s.fsm = .idle → n = 0 → exec (.advance n) s = .next s) ∧
    (s.fsm = .idle → n ≠ 0 → exec (.advance n) s = .next { s with fsm := .run n .hi .host }) ∧
    (s.fsm = .off →
      exec (.advance n) s = .next { s with fsm := .stopped, mark := .refused .notConstructed }) ∧
    (∀ rem half cont, s.fsm = .run rem half cont →
      exec (.advance n) s = .next { s with fsm := .stopped, mark := .refused .busy }) ∧
    (s.fsm = .stopped → ∀ t, exec (.advance n) s ≠ .next t)

/-- RESET: in IDLE it asserts RST, deasserts INT and NMI and enters RUN(RESET_CYCLES, HI, RESET), and leaves
HT, DBG, SINK, CNT, PREV_RD, PREV_WR, DOUT and all else; refused NOT_CONSTRUCTED in OFF and BUSY in RUN;
no step in STOPPED (R220). -/
def Obligations.ResetStartsTheResetRun : Prop :=
  ∀ s : State,
    (s.fsm = .idle → exec .reset s = .next { s with
      rst := true, int := false, nmi := false, fsm := .run s.params.resetCycles .hi .reset }) ∧
    (s.fsm = .off → exec .reset s = .next { s with fsm := .stopped, mark := .refused .notConstructed }) ∧
    (∀ rem half cont, s.fsm = .run rem half cont →
      exec .reset s = .next { s with fsm := .stopped, mark := .refused .busy }) ∧
    (s.fsm = .stopped → ∀ t, exec .reset s ≠ .next t)

/-- INIT: in OFF it writes every element of the idle step (R226) and starts the reset sequence; refused
REINIT in IDLE and in RUN; no step in STOPPED (R225). SNAP, which R226 does not list, is kept (the model's
reading, log entry 6). -/
def Obligations.InitConstructsTheCore : Prop :=
  ∀ s : State,
    (s.fsm = .off → exec .init s = .next
      { fsm := .run s.params.resetCycles .hi .reset, clk := false, rst := true, int := false, nmi := false,
        dir := .input, dout := 0x00, prevRd := false, prevWr := false, cnt := -1,
        ht := { memrd := { inst := false, handle := 0 }, memwr := { inst := false, handle := 0 },
                iord := { inst := false, handle := 0 }, iowr := { inst := false, handle := 0 } },
        dbg := 0, sink := { inst := false, handle := 0 }, snap := s.snap, hist := [], trace := [],
        mark := .none, params := s.params, env := s.env }) ∧
    (s.fsm = .idle → exec .init s = .next { s with fsm := .stopped, mark := .refused .reinit }) ∧
    (∀ rem half cont, s.fsm = .run rem half cont →
      exec .init s = .next { s with fsm := .stopped, mark := .refused .reinit }) ∧
    (s.fsm = .stopped → ∀ t, exec .init s ≠ .next t)

/-- R200: SETH k, h in IDLE makes slot k {1, h} (last writer wins, h = 0 is legal), leaves every other slot
and all else; refused NOT_CONSTRUCTED in OFF and BUSY in RUN; no step in STOPPED; the word of a selector 4
to 15 is RESERVED_ENCODING. -/
def Obligations.SethInstallsTheResponder : Prop :=
  (∀ (k : Kind) (h : Handle), decode (.command (cmdWord 0x3 (codeOfKind k) h)) = .instr (.seth k h)) ∧
  (∀ (sel : BitVec 4) (h : Handle), 4 ≤ sel.toNat → ∃ why, decodeCommand (cmdWord 0x3 sel h) = .reserved why) ∧
  ∀ (k : Kind) (h : Handle) (s : State),
    (s.fsm = .idle → ∃ ht : HandlerTable, exec (.seth k h) s = .next { s with ht := ht } ∧
      slotOf ht k = { inst := true, handle := h } ∧ ∀ j, j ≠ k → slotOf ht j = slotOf s.ht j) ∧
    (s.fsm = .off → exec (.seth k h) s = .next { s with fsm := .stopped, mark := .refused .notConstructed }) ∧
    (∀ rem half cont, s.fsm = .run rem half cont →
      exec (.seth k h) s = .next { s with fsm := .stopped, mark := .refused .busy }) ∧
    (s.fsm = .stopped → ∀ t, exec (.seth k h) s ≠ .next t)

/-- R201: CLRH k in IDLE makes slot k {0, 0} (an empty slot stays so), leaves every other slot and all else;
refused NOT_CONSTRUCTED in OFF and BUSY in RUN; no step in STOPPED; the word of a selector 4 to 15 or of an
operand not 0 is RESERVED_ENCODING. -/
def Obligations.ClrhRemovesTheResponder : Prop :=
  (∀ k : Kind, decode (.command (cmdWord 0x4 (codeOfKind k) 0)) = .instr (.clrh k)) ∧
  (∀ (sel : BitVec 4) (arg : BitVec 32), 4 ≤ sel.toNat ∨ arg ≠ 0 →
    ∃ why, decodeCommand (cmdWord 0x4 sel arg) = .reserved why) ∧
  ∀ (k : Kind) (s : State),
    (s.fsm = .idle → ∃ ht : HandlerTable, exec (.clrh k) s = .next { s with ht := ht } ∧
      slotOf ht k = { inst := false, handle := 0 } ∧ ∀ j, j ≠ k → slotOf ht j = slotOf s.ht j) ∧
    (s.fsm = .off → exec (.clrh k) s = .next { s with fsm := .stopped, mark := .refused .notConstructed }) ∧
    (∀ rem half cont, s.fsm = .run rem half cont →
      exec (.clrh k) s = .next { s with fsm := .stopped, mark := .refused .busy }) ∧
    (s.fsm = .stopped → ∀ t, exec (.clrh k) s ≠ .next t)

/-- SETDBG m in IDLE writes all four bits of DBG and nothing else (R245); SETSINK h makes SINK {1, h} (R246);
CLRSINK makes SINK {0, 0} and keeps DBG (R247). Each is refused NOT_CONSTRUCTED in OFF and BUSY in RUN, with
no step in STOPPED, and its words with a reserved field are RESERVED_ENCODING. -/
def Obligations.DebugCommandsWriteTheirRegister : Prop :=
  ((∀ m : DbgMask, decode (.command (cmdWord 0x5 0 (m.setWidth 32))) = .instr (.setdbg m)) ∧
   (∀ (sel : BitVec 4) (arg : BitVec 32), sel ≠ 0 ∨ 16 ≤ arg.toNat →
      ∃ why, decodeCommand (cmdWord 0x5 sel arg) = .reserved why) ∧
   (∀ h : Handle, decode (.command (cmdWord 0x6 0 h)) = .instr (.setsink h)) ∧
   (∀ (sel : BitVec 4) (h : Handle), sel ≠ 0 → ∃ why, decodeCommand (cmdWord 0x6 sel h) = .reserved why) ∧
   decode (.command (cmdWord 0x7 0 0)) = .instr .clrsink ∧
   (∀ (sel : BitVec 4) (arg : BitVec 32), sel ≠ 0 ∨ arg ≠ 0 →
      ∃ why, decodeCommand (cmdWord 0x7 sel arg) = .reserved why)) ∧
  ∀ (m : DbgMask) (h : Handle) (s : State),
    (s.fsm = .idle → exec (.setdbg m) s = .next { s with dbg := m } ∧
      exec (.setsink h) s = .next { s with sink := { inst := true, handle := h } } ∧
      exec .clrsink s = .next { s with sink := { inst := false, handle := 0 } }) ∧
    ∀ i, i = .setdbg m ∨ i = .setsink h ∨ i = .clrsink →
      (s.fsm = .off → exec i s = .next { s with fsm := .stopped, mark := .refused .notConstructed }) ∧
      (∀ rem half cont, s.fsm = .run rem half cont →
        exec i s = .next { s with fsm := .stopped, mark := .refused .busy }) ∧
      (s.fsm = .stopped → ∀ t, exec i s ≠ .next t)

/-- R262: every refusal's reason and its condition, and that a refused command changes nothing but MARK and
FSM: any command but INIT in OFF is NOT_CONSTRUCTED and in RUN is BUSY, INIT outside OFF is REINIT; and the codes
of the four reasons. When RESERVED_ENCODING is raised is `ReservedEncodingsAreExactlyThoseListed`. -/
def Obligations.RefusedCommandsChangeOnlyMarkAndFsm : Prop :=
  (reasonCode .notConstructed = 1 ∧ reasonCode .busy = 2 ∧ reasonCode .reinit = 3 ∧
    reasonCode .reservedEncoding = 4) ∧
  ∀ (i : Instr) (s : State), i.isCommand = true →
    (i ≠ .init → s.fsm = .off →
      exec i s = .next { s with fsm := .stopped, mark := .refused .notConstructed }) ∧
    (i ≠ .init → ∀ rem half cont, s.fsm = .run rem half cont →
      exec i s = .next { s with fsm := .stopped, mark := .refused .busy }) ∧
    (i = .init → ∀ rem half cont, s.fsm = .idle ∨ s.fsm = .run rem half cont →
      exec i s = .next { s with fsm := .stopped, mark := .refused .reinit })

/-! ## The nine classes: what each half-cycle does and leaves

Each statement is over a sampled state of a run (the state steps 1 and 2 leave, `StepRunsTheHalfCyclesClass`)
whose key is the class's, in either half, for either continuation. Its conclusion is that the meaning answers
a next state `t`; `HalfCycleEnds` gives every element of `t` that steps 5 to 7 write and the frame, and, with its number of
responder calls, exactly the replies that are left: the responder of an installed slot is called once on an edge
and no responder at any other time (R85 c, R156). That the class starts from the sampled state and that the
replies, the pins and the commands stand in lists is the model's form (log entries 1, 3, 4, 10). -/

/-- MEM_READ: DOUT takes the MEMRD responder's answer for SNAP.A, or 0x00 with no responder, HIST gains one
record, the core drives the bus with that value (R180, R193, R198). The MEMRD responder is called once
if installed (R85 c); the replies are the model's form (log entries 4, 10). -/
def Obligations.MemReadDispatchesTheRead : Prop :=
  ∀ (s : State) (wr prevWr iorq : Bool) (rem : Nat) (half : Half) (cont : Cont),
    HalfCycleRuns rem half cont (keyOf true false wr prevWr true iorq) s →
    ∃ t, exec (.memRead wr prevWr iorq) s = .next t ∧
      HalfCycleEnds rem half cont (if s.ht.memrd.inst then 1 else 0) s t ∧
      t.dout = (readOutcome .memrd (.mem s.snap.a) s).1 ∧
      t.hist = s.hist ++ [⟨.memrd, .mem s.snap.a, (readOutcome .memrd (.mem s.snap.a) s).1,
        (readOutcome .memrd (.mem s.snap.a) s).2, s.cnt, half⟩] ∧
      t.snap = s.snap ∧ dataDrive t = some t.dout ∧ t.prevRd = true ∧ t.prevWr = wr

/-- IO_READ: as MEM_READ with the IORD responder and the port SNAP.A[7:0] (R181, R194, R82). The replies
are the model's form (log entries 4, 10). -/
def Obligations.IoReadDispatchesTheRead : Prop :=
  ∀ (s : State) (wr prevWr : Bool) (rem : Nat) (half : Half) (cont : Cont),
    HalfCycleRuns rem half cont (keyOf true false wr prevWr false true) s →
    ∃ t, exec (.ioRead wr prevWr) s = .next t ∧ HalfCycleEnds rem half cont (if s.ht.iord.inst then 1 else 0) s t ∧
      t.dout = (readOutcome .iord (.port (s.snap.a.extractLsb' 0 8)) s).1 ∧
      t.hist = s.hist ++ [⟨.iord, .port (s.snap.a.extractLsb' 0 8),
        (readOutcome .iord (.port (s.snap.a.extractLsb' 0 8)) s).1,
        (readOutcome .iord (.port (s.snap.a.extractLsb' 0 8)) s).2, s.cnt, half⟩] ∧
      t.snap = s.snap ∧ dataDrive t = some t.dout ∧ t.prevRd = true ∧ t.prevWr = wr

/-- RD_NONE and RD_HELD: no dispatch; DOUT and HIST are unchanged, and the core drives the old DOUT
(R182, R183, R292). No responder is called; the replies are the model's form (log entries 4, 10). -/
def Obligations.UndispatchedReadsDriveTheOldData : Prop :=
  ∀ (s : State) (wr prevWr mreq iorq : Bool) (rem : Nat) (half : Half) (cont : Cont),
    (HalfCycleRuns rem half cont (keyOf true false wr prevWr false false) s →
      ∃ t, exec (.rdNone wr prevWr) s = .next t ∧ HalfCycleEnds rem half cont 0 s t ∧
        t.dout = s.dout ∧ t.hist = s.hist ∧ t.snap = s.snap ∧ dataDrive t = some s.dout ∧
        t.prevRd = true ∧ t.prevWr = wr) ∧
    (HalfCycleRuns rem half cont (keyOf true true wr prevWr mreq iorq) s →
      ∃ t, exec (.rdHeld wr prevWr mreq iorq) s = .next t ∧ HalfCycleEnds rem half cont 0 s t ∧
        t.dout = s.dout ∧ t.hist = s.hist ∧ t.snap = s.snap ∧ dataDrive t = some s.dout ∧
        t.prevRd = true ∧ t.prevWr = wr)

/-- MEM_WRITE: the MEMWR responder is called with SNAP.A and the CPU's data pins read after DIR <- IN, or
nothing is called; HIST gains one record and SNAP.D is that data; DOUT is not changed and the bus is
released (R184, R195, R172, R198). The MEMWR responder is called once if installed; the replies are the model's
form (log entries 4, 10). -/
def Obligations.MemWriteDispatchesTheWrite : Prop :=
  ∀ (s : State) (prevRd iorq : Bool) (rem : Nat) (half : Half) (cont : Cont),
    HalfCycleRuns rem half cont (keyOf false prevRd true false true iorq) s →
    ∃ t, exec (.memWrite prevRd iorq) s = .next t ∧ HalfCycleEnds rem half cont (if s.ht.memwr.inst then 1 else 0) s t ∧
      t.dout = s.dout ∧
      t.hist = s.hist ++ [⟨.memwr, .mem s.snap.a, s.env.pinsNow.d,
        if s.ht.memwr.inst then .handler s.ht.memwr.handle else .byDefault, s.cnt, half⟩] ∧
      t.snap = { s.snap with d := s.env.pinsNow.d } ∧ dataDrive t = none ∧ t.prevRd = false ∧ t.prevWr = true

/-- IO_WRITE: as MEM_WRITE with the IOWR responder and the port SNAP.A[7:0] (R185, R196, R82). The
replies are the model's form (log entries 4, 10). -/
def Obligations.IoWriteDispatchesTheWrite : Prop :=
  ∀ (s : State) (prevRd : Bool) (rem : Nat) (half : Half) (cont : Cont),
    HalfCycleRuns rem half cont (keyOf false prevRd true false false true) s →
    ∃ t, exec (.ioWrite prevRd) s = .next t ∧ HalfCycleEnds rem half cont (if s.ht.iowr.inst then 1 else 0) s t ∧
      t.dout = s.dout ∧
      t.hist = s.hist ++ [⟨.iowr, .port (s.snap.a.extractLsb' 0 8), s.env.pinsNow.d,
        if s.ht.iowr.inst then .handler s.ht.iowr.handle else .byDefault, s.cnt, half⟩] ∧
      t.snap = { s.snap with d := s.env.pinsNow.d } ∧ dataDrive t = none ∧ t.prevRd = false ∧ t.prevWr = true

/-- WR_NONE and WR_HELD: no dispatch; DOUT and HIST are unchanged and the bus is released; only WR_NONE, a
write edge, reads the data pins again into SNAP.D (R186, R187, R172). No responder is called; the replies
are the model's form (log entries 4, 10). -/
def Obligations.UndispatchedWritesReachNoResponder : Prop :=
  ∀ (s : State) (prevRd mreq iorq : Bool) (rem : Nat) (half : Half) (cont : Cont),
    (HalfCycleRuns rem half cont (keyOf false prevRd true false false false) s →
      ∃ t, exec (.wrNone prevRd) s = .next t ∧ HalfCycleEnds rem half cont 0 s t ∧
        t.dout = s.dout ∧ t.hist = s.hist ∧ t.snap = { s.snap with d := s.env.pinsNow.d } ∧
        dataDrive t = none ∧ t.prevRd = false ∧ t.prevWr = true) ∧
    (HalfCycleRuns rem half cont (keyOf false prevRd true true mreq iorq) s →
      ∃ t, exec (.wrHeld prevRd mreq iorq) s = .next t ∧ HalfCycleEnds rem half cont 0 s t ∧
        t.dout = s.dout ∧ t.hist = s.hist ∧ t.snap = s.snap ∧
        dataDrive t = none ∧ t.prevRd = false ∧ t.prevWr = true)

/-- IDLE: with no strobe nothing is dispatched, whatever the request lines (refresh and interrupt
acknowledge, R94), both latches are cleared and the bus is released (R188). No responder is called; the replies
are the model's form (log entries 4, 10). -/
def Obligations.NoStrobeDispatchesNothing : Prop :=
  ∀ (s : State) (prevRd prevWr mreq iorq : Bool) (rem : Nat) (half : Half) (cont : Cont),
    HalfCycleRuns rem half cont (keyOf false prevRd false prevWr mreq iorq) s →
    ∃ t, exec (.idle prevRd prevWr mreq iorq) s = .next t ∧ HalfCycleEnds rem half cont 0 s t ∧
      t.dout = s.dout ∧ t.hist = s.hist ∧ t.snap = s.snap ∧ dataDrive t = none ∧
      t.prevRd = false ∧ t.prevWr = false

/-- R197 over all classes at once: the record a completed half-cycle appends, if any, is the one the
snapshot's strobes and requests select: at most one slot, with its own operands and default. -/
def Obligations.TheClassSelectsTheSlot : Prop :=
  ∀ (s : State) (rem : Nat) (half : Half) (cont : Cont), s.fsm = .run rem half cont → NoReentry s →
    ∃ t, exec (decodeKey (class6 s)) s = .next t ∧ t.hist = s.hist ++ recordOf half s ∧
      (recordOf half s).length ≤ 1

/-- R152, R263: at the end of a cycle with CNT = CNT_MAX the fault CNT_OVERFLOW is recorded and the core
stops; CNT keeps its value and nothing is emitted, but the half-cycle's dispatch (`recordOf`, `dataAfter`,
`snapAfter`), latches and direction have already happened. The fault's code is 1. -/
def Obligations.CounterOverflowStopsTheCore : Prop :=
  faultNumber .cntOverflow = 1 ∧
  ∀ (s : State) (rem : Nat) (cont : Cont), s.fsm = .run rem .lo cont → NoReentry s →
    s.cnt = s.params.cntMax →
    ∃ t, exec (decodeKey (class6 s)) s = .next t ∧ t.mark = .fault .cntOverflow ∧ t.fsm = .stopped ∧
      t.cnt = s.cnt ∧ t.trace = s.trace ∧ t.rst = s.rst ∧ t.hist = s.hist ++ recordOf .lo s ∧
      t.dout = dataAfter s ∧ t.snap = snapAfter s ∧
      t.prevRd = s.snap.rd ∧ t.prevWr = s.snap.wr ∧ t.dir = (if s.snap.rd then .output else .input) ∧
      t.ht = s.ht ∧ t.dbg = s.dbg ∧ t.sink = s.sink ∧ t.int = s.int ∧ t.nmi = s.nmi ∧ t.clk = s.clk

/-- A class's meaning outside RUN: the half-cycle step is enabled exactly when FSM = RUN (R142), so in OFF,
IDLE and STOPPED it has no next state. -/
def Obligations.HalfCycleOnlyInRun : Prop :=
  ∀ (i : Instr) (s t : State), i.isCommand = false → (∀ rem half cont, s.fsm ≠ .run rem half cont) →
    exec i s ≠ .next t

/-! ## Re-entry -/

/-- R264: a responder that issues a command during its call is refused: RESERVED_ENCODING for a reserved
word, REINIT for INIT, BUSY for any other command. DIR is already switched (R146, R148) and SNAP.D read (R172).
That the core stops inside the call, so that DOUT, HIST, the latches, CNT, TRACE and all else stand as before it, is
the model's reading (log entry 8, DEDUCED, from V7.15: the half-cycle's remaining steps do not run); the replies and
the draws are its form (log entries 3, 4). `recordOf` names the half-cycle's dispatch and who serves it. -/
def Obligations.ReentryDuringACallStopsTheCore : Prop :=
  ∀ (s : State) (rem : Nat) (half : Half) (cont : Cont) (r : HistRecord) (h : Handle) (v : Byte) (w : CmdWord)
    (rs : List Reply),
    s.fsm = .run rem half cont → recordOf half s = [r] → r.served = .handler h →
    s.env.replies = { value := v, command := some w } :: rs →
    exec (decodeKey (class6 s)) s = .next { s with
      fsm := .stopped
      mark := .refused (match decodeCommand w with
        | .reserved _ => .reservedEncoding
        | .instr .init => .reinit
        | .instr _ => .busy)
      dir := if s.snap.rd then .output else .input
      snap := if s.snap.rd then s.snap else { s.snap with d := s.env.pinsNow.d }
      env := { s.env with replies := rs, draws := s.env.draws + 1 } }

/-- R241, R264: a sink that issues a command during the call for any of a cycle's lines is refused in the same
way. The calls before it in this half-cycle, a responder's or the sink's, returned (`before`). The half-cycle's
dispatch, latches and direction and the counter's increment have happened (R152), and the lines of the calls that
returned are in TRACE. That the core stops inside the call, with this line not in TRACE, with DOUT and HIST as the
responder's call left them and the run not going on, is the model's reading (log entry 8, DEDUCED, from R241's
order of call and append and V7.15); the replies and the draws are its form (log entries 3, 4). -/
def Obligations.ReentryOfTheSinkStopsTheCore : Prop :=
  ∀ (s : State) (rem : Nat) (cont : Cont) (before : List Reply) (v : Byte) (w : CmdWord) (rs : List Reply),
    s.fsm = .run rem .lo cont → s.cnt < s.params.cntMax →
    s.env.replies = before ++ { value := v, command := some w } :: rs → (∀ r ∈ before, r.command = none) →
    let u : State := { s with
      dir := if s.snap.rd then .output else .input
      prevRd := s.snap.rd
      prevWr := s.snap.wr
      dout := dataAfter s
      hist := s.hist ++ recordOf .lo s
      snap := snapAfter s
      cnt := s.cnt + 1 }
    responderCalls .lo s ≤ before.length →
    before.length < responderCalls .lo s + (linesAtEnd s.rst u).length →
    exec (decodeKey (class6 s)) s = .next { u with
      fsm := .stopped
      mark := .refused (match decodeCommand w with
        | .reserved _ => .reservedEncoding
        | .instr .init => .reinit
        | .instr _ => .busy)
      trace := s.trace ++ (linesAtEnd s.rst u).take (before.length - responderCalls .lo s)
      env := { s.env with replies := rs, draws := s.env.draws + (before.length + 1) } }

/-- The refusal of a command issued from inside a call is the one the command's own meaning gives while a run
is in progress (R264; R266 e): the two parts of the model that refuse a re-entering command agree. -/
def Obligations.ReentryRefusalIsTheCommandsOwn : Prop :=
  ∀ (s : State) (w : CmdWord) (i : Instr) (rem : Nat) (half : Half) (cont : Cont),
    s.fsm = .run rem half cont → decodeCommand w = .instr i →
    exec i s = .next (refuse (reentryReason w) s)

/-! ## Whole-machine rules -/

/-- Every state element at power-on that R55 gives a value: FSM = OFF, HIST and TRACE empty, MARK none; and
the parameters at R8's defaults. -/
def Obligations.PowerOnValues : Prop :=
  State.reset.fsm = .off ∧ State.reset.hist = [] ∧ State.reset.trace = [] ∧ State.reset.mark = .none ∧
  State.reset.params.resetCycles = 4 ∧ State.reset.params.cntWidth = 32

/-- The invariant holds at power-on. -/
def Obligations.PowerOnMeetsTheInvariant : Prop := Inv State.reset

/-- Every step keeps the invariant: MARK is set exactly in STOPPED (R53); `rem` stays 1 to 2^32-1 (R33); the
clock is LOW in IDLE and follows the half in RUN (R141, R159); RST is asserted exactly in a reset run
(R220 to R222); INT and NMI stay deasserted (R265); CNT stays from -1 to CNT_MAX (R42, R44); DIR follows the
read-strobe (R155); empty slots are canonical (D27); HIST records go to the space of their kind (R90). -/
def Obligations.EveryStepKeepsTheInvariant : Prop :=
  ∀ s t : State, Inv s → step s = .next t → Inv t

/-- R155: after every half-cycle that does not stop the core inside a call, DIR = OUT exactly when SNAP.RD = 1
and DIR = IN exactly when SNAP.RD = 0. -/
def Obligations.DirectionFollowsTheReadStrobe : Prop :=
  ∀ (s t : State) (rem : Nat) (half : Half) (cont : Cont), s.fsm = .run rem half cont → step s = .next t →
    (∀ why, t.mark ≠ .refused why) → (t.dir = .input ↔ t.snap.rd = false) ∧ (t.dir = .output ↔ t.snap.rd = true)

/-- R50, R199: no half-cycle step changes HT, DBG or SINK, whatever the responders and the sink do. -/
def Obligations.ControlRegistersAreConstantInARun : Prop :=
  ∀ (s t : State) (rem : Nat) (half : Half) (cont : Cont), s.fsm = .run rem half cont → step s = .next t →
    t.ht = s.ht ∧ t.dbg = s.dbg ∧ t.sink = s.sink

/-- R265, R35: no step asserts INT or NMI. -/
def Obligations.NoStepAssertsInterrupts : Prop :=
  ∀ s t : State, step s = .next t → (t.int = true → s.int = true) ∧ (t.nmi = true → s.nmi = true)

/-- R42, R270: a step writes CNT only at the end of a cycle, by exactly 1, or to -1 by INIT. -/
def Obligations.OnlyTheEndOfACycleCounts : Prop :=
  ∀ s t : State, step s = .next t →
    t.cnt = s.cnt ∨ (t.cnt = s.cnt + 1 ∧ ∃ rem cont, s.fsm = .run rem .lo cont) ∨ (t.cnt = -1 ∧ s.fsm = .off)

/-- R88, R90: HIST is the order of the transactions: no step but INIT's removes or changes a record, and a
step appends at most one, only in a run. -/
def Obligations.HistoryOnlyGrows : Prop :=
  ∀ s t : State, step s = .next t → s.fsm ≠ .off →
    t.hist = s.hist ∨ ((∃ rem half cont, s.fsm = .run rem half cont) ∧ ∃ r, t.hist = s.hist ++ [r])

/-- R82, R87: the high address byte reaches no I/O responder: from two states that differ only there, an
IO_READ or an IO_WRITE half-cycle gives the same DOUT and the same HIST. -/
def Obligations.PortIgnoresTheHighAddressByte : Prop :=
  ∀ (s t t' : State) (a : Addr) (i : Instr) (rem : Nat) (half : Half) (cont : Cont),
    s.fsm = .run rem half cont → s.snap.a.extractLsb' 0 8 = a.extractLsb' 0 8 →
    ((∃ wr prevWr, i = .ioRead wr prevWr) ∨ (∃ prevRd, i = .ioWrite prevRd)) →
    exec i s = .next t → exec i { s with snap := { s.snap with a := a } } = .next t' →
    t'.dout = t.dout ∧ t'.hist = t.hist

/-- R202: if DOUT = 0x00 (as INIT leaves it) and no responder is installed for MEMRD or IORD at any time of a
run of steps, commands among them, DOUT is 0x00 at its end and whenever the core drives the bus it drives
0x00, for every combination of strobes and requests and whatever the outside parties do. -/
def Obligations.NoReadResponderMeansZeroOnTheBus : Prop :=
  ∀ (k : Nat) (s t : State), s.dout = 0x00 →
    (∀ j u, j ≤ k → runSteps j s = .next u → u.ht.memrd.inst = false ∧ u.ht.iord.inst = false) →
    runSteps k s = .next t → t.dout = 0x00 ∧ (dataDrive t = none ∨ dataDrive t = some 0x00)

/-- R240, R244: the lines of a completed cycle: none without a sink (whatever DBG holds), none when no flag
hits, one SUMMARY on a hit, four with VERBOSE; VERBOSE alone emits nothing. The lines carry CNT after the
increment, the LO snapshot, the outputs and DIR (R242, R243). No line is emitted in a HIGH half-cycle. -/
def Obligations.EmissionFilter : Prop :=
  ∀ (s t : State) (rem : Nat) (half : Half) (cont : Cont), s.fsm = .run rem half cont → NoReentry s →
    (half = .lo → s.cnt < s.params.cntMax) → exec (decodeKey (class6 s)) s = .next t →
    (half = .hi → t.trace = s.trace) ∧
    (s.sink.inst = false → t.trace = s.trace) ∧
    (half = .lo → s.sink.inst = true →
      (s.dbg.getLsbD 0 || (s.dbg.getLsbD 1 && s.snap.iorq) || (s.dbg.getLsbD 2 && s.snap.mreq)) = false →
      t.trace = s.trace) ∧
    (half = .lo → s.sink.inst = true →
      (s.dbg.getLsbD 0 || (s.dbg.getLsbD 1 && s.snap.iorq) || (s.dbg.getLsbD 2 && s.snap.mreq)) = true →
      t.trace = s.trace ++ (s.sink.handle, .summary (s.cnt + 1) t.snap) ::
        (if s.dbg.getLsbD 3 then
          [(s.sink.handle, .pinIn t.snap), (s.sink.handle, .pinOut s.clk s.rst s.int s.nmi t.dout),
            (s.sink.handle, .pinDir t.dir)]
        else []))

/-- R248: with a sink installed and DBG = IO only, a run of two cycles where I/O-request is asserted in the
first cycle's LO snapshot and not in the second's emits exactly one line. -/
def Obligations.IoTraceEmitsExactlyOneLine : Prop :=
  ∀ (s : State) (p1 p2 p3 p4 : Pins) (ps : List Pins), s.fsm = .run 2 .hi .host → NoReentry s →
    s.cnt + 2 ≤ s.params.cntMax → s.sink.inst = true → s.dbg = 0b0010 →
    s.env.pins = p1 :: p2 :: p3 :: p4 :: ps → p2.iorq = true → p4.iorq = false →
    ∃ t sn, runSteps 4 s = .next t ∧ t.fsm = .idle ∧
      t.trace = s.trace ++ [(s.sink.handle, .summary (s.cnt + 1) sn)]

/-! ## Runs -/

/-- R154, R158, R153: from RUN(n, HI, cont) exactly 2n half-cycle steps follow and no command is taken
between them; the run then ends in IDLE with CNT advanced by n, the clock LOW and, for a reset run, the
reset line released. HT, DBG, SINK, INT, NMI and MARK are as they were. The premises are that no outside
party re-enters and that the counter has room. That no command is taken is said of the queue in env, the model's form
(log entry 1). -/
def Obligations.RunOfNCyclesIsTwoNSteps : Prop :=
  ∀ (n : Nat) (cont : Cont) (s : State), 1 ≤ n → s.fsm = .run n .hi cont → NoReentry s →
    s.cnt + n ≤ s.params.cntMax →
    (∀ k, k < 2 * n → ∃ u rem half, runSteps k s = .next u ∧ u.fsm = .run rem half cont ∧
      u.rst = s.rst ∧ u.env.commands = s.env.commands) ∧
    ∃ t, runSteps (2 * n) s = .next t ∧ t.fsm = .idle ∧ t.cnt = s.cnt + n ∧ t.clk = false ∧
      t.rst = (if cont = .reset then false else s.rst) ∧ t.int = s.int ∧ t.nmi = s.nmi ∧ t.ht = s.ht ∧
      t.dbg = s.dbg ∧ t.sink = s.sink ∧ t.mark = s.mark ∧ t.env.commands = s.env.commands

/-- R158: ADVANCE n, issued in IDLE, with no fault, ends in IDLE with CNT = c + n, for every n the encoding
admits, 0 among them (R140). That the command is a word of a queue in env, of which `ws` is left, is the model's form
(log entry 1). -/
def Obligations.AdvanceCountsItsCycles : Prop :=
  ∀ (n : Nat) (s : State) (ws : List CmdWord), n ≤ Config.advMax → s.fsm = .idle → NoReentry s →
    s.env.commands = cmdWord 0x1 0 (BitVec.ofNat 32 n) :: ws → s.cnt + n ≤ s.params.cntMax →
    ∃ t, runSteps (2 * n + 1) s = .next t ∧ t.cnt = s.cnt + n ∧ t.fsm = .idle ∧ (n ≠ 0 → t.clk = false) ∧
      t.env.commands = ws

/-- R223: after RESET from IDLE with no fault, RST = INT = NMI = 0, CNT has advanced by RESET_CYCLES, CLK = 0
and FSM = IDLE; HT, DBG and SINK are unchanged (R220), and in every half-cycle of the run the snapshot has
RST = 1 (R221). -/
def Obligations.ResetCompletes : Prop :=
  ∀ (s : State) (ws : List CmdWord), s.params.valid → s.fsm = .idle → NoReentry s →
    s.env.commands = 0x2000000000#40 :: ws → s.cnt + s.params.resetCycles ≤ s.params.cntMax →
    (∀ k, 1 ≤ k → k ≤ 2 * s.params.resetCycles → ∃ u, runSteps (k + 1) s = .next u ∧ u.snap.rst = true) ∧
    ∃ t, runSteps (2 * s.params.resetCycles + 1) s = .next t ∧ t.rst = false ∧ t.int = false ∧
      t.nmi = false ∧ t.cnt = s.cnt + s.params.resetCycles ∧ t.clk = false ∧ t.fsm = .idle ∧
      t.ht = s.ht ∧ t.dbg = s.dbg ∧ t.sink = s.sink

/-- R227: after INIT from OFF with no fault, FSM = IDLE, CLK = RST = INT = NMI = 0, CNT = RESET_CYCLES - 1,
HT and SINK are empty, DBG = 0, DOUT = 0x00, and DIR, PREV_RD and PREV_WR are as the last half-cycle's
snapshot left them; nothing was emitted (R225). No premise on the outside is needed: INIT's run calls no
one. -/
def Obligations.InitCompletes : Prop :=
  ∀ (s : State) (ws : List CmdWord), s.params.valid → s.fsm = .off →
    s.env.commands = 0x0000000000#40 :: ws → (s.params.resetCycles : Int) - 1 ≤ s.params.cntMax →
    ∃ t, runSteps (2 * s.params.resetCycles + 1) s = .next t ∧ t.fsm = .idle ∧ t.clk = false ∧
      t.rst = false ∧ t.int = false ∧ t.nmi = false ∧ t.cnt = (s.params.resetCycles : Int) - 1 ∧
      (∀ k, slotOf t.ht k = { inst := false, handle := 0 }) ∧ t.dbg = 0 ∧
      t.sink = { inst := false, handle := 0 } ∧ t.dout = 0x00 ∧ t.trace = [] ∧ t.mark = .none ∧
      t.prevRd = t.snap.rd ∧ t.prevWr = t.snap.wr ∧ t.dir = (if t.snap.rd then .output else .input)

/-- R156, for the read-strobe: once it was asserted in the last half-cycle, no later half-cycle in which it
stays asserted calls a read responder (nor a write responder, R147), across any commands in between (R39,
R300): HIST and DOUT stand still. Each step uses at most one entry of the listed pins. -/
def Obligations.HeldReadStrobeIsDispatchedOnce : Prop :=
  ∀ (k : Nat) (s t : State), s.fsm ≠ .off → s.prevRd = true → k ≤ s.env.pins.length →
    (∀ p ∈ s.env.pins.take k, p.rd = true) → runSteps k s = .next t → t.hist = s.hist ∧ t.dout = s.dout

/-- R156, for the write-strobe: once it was asserted in the last half-cycle, no later half-cycle in which it
stays asserted, with the read-strobe deasserted, calls a responder, across any commands in between. -/
def Obligations.HeldWriteStrobeIsDispatchedOnce : Prop :=
  ∀ (k : Nat) (s t : State), s.fsm ≠ .off → s.prevWr = true → k ≤ s.env.pins.length →
    (∀ p ∈ s.env.pins.take k, p.rd = false ∧ p.wr = true) → runSteps k s = .next t →
    t.hist = s.hist ∧ t.dout = s.dout

/-- R157: a cycle dispatches at most one read and at most one write; two only when its strobes change between
its halves: HI is a read edge and LO a write edge (RD 1 then 0, WR 0 then 1), or HI is a write edge and LO a
read edge. -/
def Obligations.CycleDispatchesAtMostAReadAndAWrite : Prop :=
  ∀ (s t : State) (rem : Nat) (cont : Cont) (p q : Pins) (ps : List Pins), s.fsm = .run rem .hi cont →
    s.env.pins = p :: q :: ps → runSteps 2 s = .next t →
    ∃ l : List HistRecord, t.hist = s.hist ++ l ∧
      (l.filter fun r => r.kind == .memrd || r.kind == .iord).length ≤ 1 ∧
      (l.filter fun r => r.kind == .memwr || r.kind == .iowr).length ≤ 1 ∧
      (l.length = 2 →
        (p.rd = true ∧ p.wr = false ∧ q.rd = false ∧ q.wr = true) ∨
        (p.rd = false ∧ p.wr = true ∧ q.rd = true))

/-- R296: a write-strobe that becomes asserted while the read-strobe is asserted is never dispatched: neither
in that half-cycle nor in the next one of the run, where only the write-strobe is left asserted. The run has a
next half-cycle when this is a cycle's HIGH half or not its last cycle. -/
def Obligations.WriteHiddenByAReadIsLost : Prop :=
  ∀ (s t : State) (rem : Nat) (half : Half) (cont : Cont) (p q : Pins) (ps : List Pins),
    s.fsm = .run rem half cont → half = .hi ∨ 2 ≤ rem → s.env.pins = p :: q :: ps →
    p.rd = true → p.wr = true → q.rd = false → q.wr = true → runSteps 2 s = .next t →
    ∃ l : List HistRecord, t.hist = s.hist ++ l ∧ ∀ r ∈ l, r.kind = .memrd ∨ r.kind = .iord

/-- R294: if a strobe is asserted in one sample and its request line only in the next, the transaction is
never dispatched: a read leaves DOUT (so the stale value is driven, R292) and a write is lost. -/
def Obligations.LateRequestIsNeverDispatched : Prop :=
  ∀ (s t : State) (rem : Nat) (half : Half) (cont : Cont) (p q : Pins) (ps : List Pins),
    s.fsm = .run rem half cont → half = .hi ∨ 2 ≤ rem → s.env.pins = p :: q :: ps →
    p.mreq = false → p.iorq = false →
    ((p.rd = true ∧ q.rd = true) ∨ (p.rd = false ∧ q.rd = false ∧ p.wr = true ∧ q.wr = true)) →
    runSteps 2 s = .next t → t.hist = s.hist ∧ t.dout = s.dout

/-! ## The pin interface and several cores -/

/-- R38, R40, R41: the core presents DOUT on the data pins exactly while DIR = OUT; it drives the reset, the two
interrupt lines and the clock and no other control line; every line but the clock is active-low, and a line's
level gives its asserted state back. Every control line shows its own driver's value. That write-strobe,
memory-request, I/O-request, instruction-fetch and refresh are active-low is a choice, decision D4 that R41 takes
(log entry 13); that the CPU's lines show the last half-cycle's pins while none is under way is the model's (log
entry 19). -/
def Obligations.LinesDriversAndLevels : Prop :=
  (∀ s : State, dataDrive s = if s.dir = .output then some s.dout else none) ∧
  (∀ l : ControlLine, lineDriver l = .core ↔
    l = .reset ∨ l = .interrupt ∨ l = .nonMaskableInterrupt ∨ l = .clock) ∧
  (∀ (l : ControlLine) (b : Bool), lineLevel l b = .high ↔ ((l = .clock ∧ b = true) ∨ (l ≠ .clock ∧ b = false))) ∧
  (∀ (l : ControlLine) (b : Bool), lineAsserted l (lineLevel l b) = b) ∧
  (∀ s : State, linesOf s .clock = (if s.clk then .high else .low) ∧
    linesOf s .reset = (if s.rst then .low else .high) ∧
    linesOf s .interrupt = (if s.int then .low else .high) ∧
    linesOf s .nonMaskableInterrupt = (if s.nmi then .low else .high) ∧
    linesOf s .readStrobe = (if s.env.pinsNow.rd then .low else .high) ∧
    linesOf s .writeStrobe = (if s.env.pinsNow.wr then .low else .high) ∧
    linesOf s .memoryRequest = (if s.env.pinsNow.mreq then .low else .high) ∧
    linesOf s .ioRequest = (if s.env.pinsNow.iorq then .low else .high) ∧
    linesOf s .instructionFetch = (if s.env.pinsNow.m1 then .low else .high) ∧
    linesOf s .refresh = (if s.env.pinsNow.rfsh then .low else .high))

/-- R272: several cores share no state element: a step of one leaves every other as it was. That the cores stand in
a list and an argument says which one steps is the model's form (log entry 17). -/
def Obligations.CoresDoNotInterfere : Prop :=
  ∀ (cores cores' : List State) (k : Nat), stepOne k cores = some (.next cores') →
    (∃ s t, cores[k]? = some s ∧ step s = .next t ∧ cores'[k]? = some t) ∧
    (∀ j, j ≠ k → cores'[j]? = cores[j]?) ∧ cores'.length = cores.length

/-- R130: the three examples of the textual syntax assemble to the commands whose words the rule gives. -/
def Obligations.SyntaxExamplesAssemble : Prop :=
  (assemble "ADVANCE 3".toList).map encode = some (.command 0x1000000003) ∧
  (assemble "SETH IOWR, 7".toList).map encode = some (.command 0x3300000007) ∧
  (assemble "SETDBG IO|VERBOSE".toList).map encode = some (.command 0x500000000A)
end

