-- ==== Sys2Proof/Laws/Encoding.lean ====
section
/-! SUPPORT. Laws of the encodings: the fields of a command word, a row's match read field by field, the
kind codes, and the address from its two byte groups. -/

namespace Sys2Proof.Machine

/-- The two byte groups of an address give it back (R83). -/
@[simp] theorem addrOfBytes_split (a : Addr) : addrOfBytes (addrHigh a) (addrLow a) = a := by
  unfold addrOfBytes addrHigh addrLow
  ext i hi
  simp only [BitVec.getElem_cast, BitVec.getElem_append, BitVec.getElem_extractLsb']
  split
  · simp [BitVec.getLsbD_eq_getElem hi]
  · rw [show 8 + (i - 8) = i by omega, BitVec.getLsbD_eq_getElem hi]

end Sys2Proof.Machine

namespace Sys2Proof

/-- Bit `i` of a command word, from its fields. -/
theorem cmdWord_bit (op sel : BitVec 4) (arg : BitVec 32) (i : Nat) :
    (cmdWord op sel arg).getLsbD i =
      if i < 32 then arg.getLsbD i else if i < 36 then sel.getLsbD (i - 32) else op.getLsbD (i - 36) := by
  unfold cmdWord
  simp only [BitVec.getLsbD_cast, BitVec.getLsbD_append]
  split
  · rfl
  · rw [show i - 32 - 4 = i - 36 by omega]
    exact if_congr (by omega) rfl rfl

@[simp] theorem cmdOp_cmdWord (op sel : BitVec 4) (arg : BitVec 32) : cmdOp (cmdWord op sel arg) = op := by
  unfold cmdOp
  ext i hi
  rw [BitVec.getElem_extractLsb', cmdWord_bit, if_neg (by omega), if_neg (by omega),
    show 36 + i - 36 = i by omega, BitVec.getLsbD_eq_getElem hi]

@[simp] theorem cmdSel_cmdWord (op sel : BitVec 4) (arg : BitVec 32) : cmdSel (cmdWord op sel arg) = sel := by
  unfold cmdSel
  ext i hi
  rw [BitVec.getElem_extractLsb', cmdWord_bit, if_neg (by omega), if_pos (by omega),
    show 32 + i - 32 = i by omega, BitVec.getLsbD_eq_getElem hi]

@[simp] theorem cmdArg_cmdWord (op sel : BitVec 4) (arg : BitVec 32) : cmdArg (cmdWord op sel arg) = arg := by
  unfold cmdArg
  ext i hi
  rw [BitVec.getElem_extractLsb', cmdWord_bit, if_pos (by omega),
    show 0 + i = i by omega, BitVec.getLsbD_eq_getElem hi]

/-- A command word is its three fields. -/
theorem cmdWord_fields (w : CmdWord) : cmdWord (cmdOp w) (cmdSel w) (cmdArg w) = w := by
  apply BitVec.eq_of_getLsbD_eq
  intro i hi
  rw [cmdWord_bit]
  unfold cmdOp cmdSel cmdArg
  simp only [BitVec.getLsbD_extractLsb']
  split
  · simp [*]
  · split
    · rw [show 32 + (i - 32) = i by omega]; simp; omega
    · rw [show 36 + (i - 36) = i by omega]; simp; omega

theorem cmdWord_inj {op sel : BitVec 4} {arg : BitVec 32} {op' sel' : BitVec 4} {arg' : BitVec 32} :
    cmdWord op sel arg = cmdWord op' sel' arg' ↔ op = op' ∧ sel = sel' ∧ arg = arg' := by
  constructor
  · intro h
    refine ⟨?_, ?_, ?_⟩
    · simpa [cmdOp_cmdWord] using congrArg cmdOp h
    · simpa [cmdSel_cmdWord] using congrArg cmdSel h
    · simpa [cmdArg_cmdWord] using congrArg cmdArg h
  · rintro ⟨rfl, rfl, rfl⟩; rfl

/-- Masking a command word masks its fields. -/
theorem cmdWord_and (op sel : BitVec 4) (arg : BitVec 32) (op' sel' : BitVec 4) (arg' : BitVec 32) :
    cmdWord op sel arg &&& cmdWord op' sel' arg' = cmdWord (op &&& op') (sel &&& sel') (arg &&& arg') := by
  apply BitVec.eq_of_getLsbD_eq
  intro i hi
  simp only [BitVec.getLsbD_and, cmdWord_bit]
  split
  · rfl
  · split <;> rfl
/-- A row's match, read field by field. -/
theorem row_matches (w : CmdWord) (m p : CmdWord) :
    (w &&& m == p) = (decide (cmdOp w &&& cmdOp m = cmdOp p) && decide (cmdSel w &&& cmdSel m = cmdSel p)
      && decide (cmdArg w &&& cmdArg m = cmdArg p)) := by
  have h : (w &&& m = p) ↔ (cmdOp w &&& cmdOp m = cmdOp p ∧ cmdSel w &&& cmdSel m = cmdSel p ∧ cmdArg w &&& cmdArg m = cmdArg p) := by
    rw [← cmdWord_inj, ← cmdWord_and, cmdWord_fields, cmdWord_fields, cmdWord_fields]
  rw [Bool.eq_iff_iff]
  simp [h, and_assoc]

@[simp] theorem kindOfCode_codeOfKind (k : Kind) : kindOfCode (codeOfKind k) = k := by
  cases k <;> rfl

theorem codeOfKind_kindOfCode (c : BitVec 4) (h : c.toNat < 4) : codeOfKind (kindOfCode c) = c := by
  revert h
  revert c
  decide

/-- A key is its six bits. -/
theorem keyOf_bits (k : Key) :
    keyOf (keyRd k) (keyPrevRd k) (keyWr k) (keyPrevWr k) (keyMreq k) (keyIorq k) = k := by
  revert k
  decide

end Sys2Proof
end

