-- ==== Sys2Proof/Laws/Decode.lean ====
section
/-! SUPPORT. The command decoder read field by field: one lemma for each row's mask, and the decoder of a
word given by its fields. -/

namespace Sys2Proof

theorem and_ones4 (x : BitVec 4) : x &&& 15#4 = x := by revert x; decide

theorem and_twelve4 (x : BitVec 4) : x &&& 12#4 = 0#4 ↔ x.toNat < 4 := by revert x; decide

theorem and_ones32 (x : BitVec 32) : x &&& 4294967295#32 = x := by
  rw [show 4294967295#32 = BitVec.allOnes 32 by decide, BitVec.and_allOnes]

/-- The mask of SETDBG's unused operand bits: they are all 0 exactly when the operand is below 16. -/
theorem and_high28 (x : BitVec 32) : x &&& 4294967280#32 = 0#32 ↔ x.toNat < 16 := by
  constructor
  · intro h
    have e : x = (x &&& 4294967280#32) ||| (x &&& 15#32) := by
      rw [← BitVec.and_or_distrib_left, show 4294967280#32 ||| 15#32 = BitVec.allOnes 32 by decide,
        BitVec.and_allOnes]
    rw [h, BitVec.zero_or] at e
    have n := congrArg BitVec.toNat e
    rw [BitVec.toNat_and, show (15#32).toNat = 2 ^ 4 - 1 by decide, Nat.and_two_pow_sub_one_eq_mod] at n
    omega
  · intro h
    rw [show x = BitVec.ofNat 32 x.toNat by simp]
    generalize x.toNat = n at h
    interval_cases n <;> decide

/-- The low four bits of a command word are the low four bits of its operand. -/
theorem low4_cmdWord (op sel : BitVec 4) (arg : BitVec 32) :
    (cmdWord op sel arg).extractLsb' 0 4 = arg.setWidth 4 := by
  apply BitVec.eq_of_getLsbD_eq
  intro i hi
  rw [BitVec.getLsbD_extractLsb', BitVec.getLsbD_setWidth, cmdWord_bit, if_pos (by omega),
    show 0 + i = i by omega]

/-- Two command words are the same when their fields are. -/
theorem cmdWord_beq (op sel : BitVec 4) (arg : BitVec 32) (op' sel' : BitVec 4) (arg' : BitVec 32) :
    (cmdWord op sel arg == cmdWord op' sel' arg') = decide (op = op' ∧ sel = sel' ∧ arg = arg') := by
  rw [Bool.eq_iff_iff, beq_iff_eq, cmdWord_inj, decide_eq_true_iff]

/-- The decoder on a word given by its fields: the rows of R111 in their order, else the rejection. -/
theorem decodeCommand_cmdWord (op sel : BitVec 4) (arg : BitVec 32) :
    decodeCommand (cmdWord op sel arg) =
      if op = 0 ∧ sel = 0 ∧ arg = 0 then .instr .init
      else if op = 1 ∧ sel = 0 then .instr (.advance arg.toNat)
      else if op = 2 ∧ sel = 0 ∧ arg = 0 then .instr .reset
      else if op = 3 ∧ sel.toNat < 4 then .instr (.seth (kindOfCode sel) arg)
      else if op = 4 ∧ sel.toNat < 4 ∧ arg = 0 then .instr (.clrh (kindOfCode sel))
      else if op = 5 ∧ sel = 0 ∧ arg.toNat < 16 then .instr (.setdbg (arg.setWidth 4))
      else if op = 6 ∧ sel = 0 then .instr (.setsink arg)
      else if op = 7 ∧ sel = 0 ∧ arg = 0 then .instr .clrsink
      else .reserved (reservedClause (cmdWord op sel arg)) := by
  unfold decodeCommand commandRows
  simp only [List.find?,
    show (0xFFFFFFFFFF : CmdWord) = cmdWord 15 15 4294967295 by decide,
    show (0xFF00000000 : CmdWord) = cmdWord 15 15 0 by decide,
    show (0xFC00000000 : CmdWord) = cmdWord 15 12 0 by decide,
    show (0xFCFFFFFFFF : CmdWord) = cmdWord 15 12 4294967295 by decide,
    show (0xFFFFFFFFF0 : CmdWord) = cmdWord 15 15 4294967280 by decide,
    show (0x0000000000 : CmdWord) = cmdWord 0 0 0 by decide,
    show (0x1000000000 : CmdWord) = cmdWord 1 0 0 by decide,
    show (0x2000000000 : CmdWord) = cmdWord 2 0 0 by decide,
    show (0x3000000000 : CmdWord) = cmdWord 3 0 0 by decide,
    show (0x4000000000 : CmdWord) = cmdWord 4 0 0 by decide,
    show (0x5000000000 : CmdWord) = cmdWord 5 0 0 by decide,
    show (0x6000000000 : CmdWord) = cmdWord 6 0 0 by decide,
    show (0x7000000000 : CmdWord) = cmdWord 7 0 0 by decide,
    cmdWord_and]
  simp only [BitVec.ofNat_eq_ofNat, and_ones4, and_ones32, BitVec.and_zero, cmdWord_beq, and_twelve4,
    and_high28, and_true]
  by_cases h0 : op = 0#4 ∧ sel = 0#4 ∧ arg = 0#32
  · rw [if_pos h0]; simp only [decide_eq_true h0]
  rw [if_neg h0]; simp only [decide_eq_false h0]
  by_cases h1 : op = 1#4 ∧ sel = 0#4
  · rw [if_pos h1]; simp only [decide_eq_true h1, cmdArg_cmdWord]
  rw [if_neg h1]; simp only [decide_eq_false h1]
  by_cases h2 : op = 2#4 ∧ sel = 0#4 ∧ arg = 0#32
  · rw [if_pos h2]; simp only [decide_eq_true h2]
  rw [if_neg h2]; simp only [decide_eq_false h2]
  by_cases h3 : op = 3#4 ∧ sel.toNat < 4
  · rw [if_pos h3]; simp only [decide_eq_true h3, cmdArg_cmdWord, cmdSel_cmdWord]
  rw [if_neg h3]; simp only [decide_eq_false h3]
  by_cases h4 : op = 4#4 ∧ sel.toNat < 4 ∧ arg = 0#32
  · rw [if_pos h4]; simp only [decide_eq_true h4, cmdSel_cmdWord]
  rw [if_neg h4]; simp only [decide_eq_false h4]
  by_cases h5 : op = 5#4 ∧ sel = 0#4 ∧ arg.toNat < 16
  · rw [if_pos h5]; simp only [decide_eq_true h5, low4_cmdWord]
  rw [if_neg h5]; simp only [decide_eq_false h5]
  by_cases h6 : op = 6#4 ∧ sel = 0#4
  · rw [if_pos h6]; simp only [decide_eq_true h6, cmdArg_cmdWord]
  rw [if_neg h6]; simp only [decide_eq_false h6]
  by_cases h7 : op = 7#4 ∧ sel = 0#4 ∧ arg = 0#32
  · rw [if_pos h7]; simp only [decide_eq_true h7]
  rw [if_neg h7]; simp only [decide_eq_false h7]

end Sys2Proof
end

