-- ==== Sys2Proof/Laws/State.lean ====
section
/-! SUPPORT. One lemma for each field of State under each named update, so that no later proof unfolds a
record update. -/

namespace Sys2Proof.Machine

variable (s : State)

/-! `stopWith`. -/

@[simp] theorem stopWith_fsm (m : Mark) : (stopWith m s).fsm = .stopped := rfl
@[simp] theorem stopWith_clk (m : Mark) : (stopWith m s).clk = s.clk := rfl
@[simp] theorem stopWith_rst (m : Mark) : (stopWith m s).rst = s.rst := rfl
@[simp] theorem stopWith_int (m : Mark) : (stopWith m s).int = s.int := rfl
@[simp] theorem stopWith_nmi (m : Mark) : (stopWith m s).nmi = s.nmi := rfl
@[simp] theorem stopWith_dir (m : Mark) : (stopWith m s).dir = s.dir := rfl
@[simp] theorem stopWith_dout (m : Mark) : (stopWith m s).dout = s.dout := rfl
@[simp] theorem stopWith_prevRd (m : Mark) : (stopWith m s).prevRd = s.prevRd := rfl
@[simp] theorem stopWith_prevWr (m : Mark) : (stopWith m s).prevWr = s.prevWr := rfl
@[simp] theorem stopWith_cnt (m : Mark) : (stopWith m s).cnt = s.cnt := rfl
@[simp] theorem stopWith_ht (m : Mark) : (stopWith m s).ht = s.ht := rfl
@[simp] theorem stopWith_dbg (m : Mark) : (stopWith m s).dbg = s.dbg := rfl
@[simp] theorem stopWith_sink (m : Mark) : (stopWith m s).sink = s.sink := rfl
@[simp] theorem stopWith_snap (m : Mark) : (stopWith m s).snap = s.snap := rfl
@[simp] theorem stopWith_hist (m : Mark) : (stopWith m s).hist = s.hist := rfl
@[simp] theorem stopWith_trace (m : Mark) : (stopWith m s).trace = s.trace := rfl
@[simp] theorem stopWith_mark (m : Mark) : (stopWith m s).mark = m := rfl
@[simp] theorem stopWith_params (m : Mark) : (stopWith m s).params = s.params := rfl
@[simp] theorem stopWith_env (m : Mark) : (stopWith m s).env = s.env := rfl

/-! `refuse`. -/

@[simp] theorem refuse_fsm (r : Reason) : (refuse r s).fsm = .stopped := rfl
@[simp] theorem refuse_clk (r : Reason) : (refuse r s).clk = s.clk := rfl
@[simp] theorem refuse_rst (r : Reason) : (refuse r s).rst = s.rst := rfl
@[simp] theorem refuse_int (r : Reason) : (refuse r s).int = s.int := rfl
@[simp] theorem refuse_nmi (r : Reason) : (refuse r s).nmi = s.nmi := rfl
@[simp] theorem refuse_dir (r : Reason) : (refuse r s).dir = s.dir := rfl
@[simp] theorem refuse_dout (r : Reason) : (refuse r s).dout = s.dout := rfl
@[simp] theorem refuse_prevRd (r : Reason) : (refuse r s).prevRd = s.prevRd := rfl
@[simp] theorem refuse_prevWr (r : Reason) : (refuse r s).prevWr = s.prevWr := rfl
@[simp] theorem refuse_cnt (r : Reason) : (refuse r s).cnt = s.cnt := rfl
@[simp] theorem refuse_ht (r : Reason) : (refuse r s).ht = s.ht := rfl
@[simp] theorem refuse_dbg (r : Reason) : (refuse r s).dbg = s.dbg := rfl
@[simp] theorem refuse_sink (r : Reason) : (refuse r s).sink = s.sink := rfl
@[simp] theorem refuse_snap (r : Reason) : (refuse r s).snap = s.snap := rfl
@[simp] theorem refuse_hist (r : Reason) : (refuse r s).hist = s.hist := rfl
@[simp] theorem refuse_trace (r : Reason) : (refuse r s).trace = s.trace := rfl
@[simp] theorem refuse_mark (r : Reason) : (refuse r s).mark = .refused r := rfl
@[simp] theorem refuse_params (r : Reason) : (refuse r s).params = s.params := rfl
@[simp] theorem refuse_env (r : Reason) : (refuse r s).env = s.env := rfl

/-! `raiseFault`. -/

@[simp] theorem raiseFault_fsm (c : FaultCode) : (raiseFault c s).fsm = .stopped := rfl
@[simp] theorem raiseFault_clk (c : FaultCode) : (raiseFault c s).clk = s.clk := rfl
@[simp] theorem raiseFault_rst (c : FaultCode) : (raiseFault c s).rst = s.rst := rfl
@[simp] theorem raiseFault_int (c : FaultCode) : (raiseFault c s).int = s.int := rfl
@[simp] theorem raiseFault_nmi (c : FaultCode) : (raiseFault c s).nmi = s.nmi := rfl
@[simp] theorem raiseFault_dir (c : FaultCode) : (raiseFault c s).dir = s.dir := rfl
@[simp] theorem raiseFault_dout (c : FaultCode) : (raiseFault c s).dout = s.dout := rfl
@[simp] theorem raiseFault_prevRd (c : FaultCode) : (raiseFault c s).prevRd = s.prevRd := rfl
@[simp] theorem raiseFault_prevWr (c : FaultCode) : (raiseFault c s).prevWr = s.prevWr := rfl
@[simp] theorem raiseFault_cnt (c : FaultCode) : (raiseFault c s).cnt = s.cnt := rfl
@[simp] theorem raiseFault_ht (c : FaultCode) : (raiseFault c s).ht = s.ht := rfl
@[simp] theorem raiseFault_dbg (c : FaultCode) : (raiseFault c s).dbg = s.dbg := rfl
@[simp] theorem raiseFault_sink (c : FaultCode) : (raiseFault c s).sink = s.sink := rfl
@[simp] theorem raiseFault_snap (c : FaultCode) : (raiseFault c s).snap = s.snap := rfl
@[simp] theorem raiseFault_hist (c : FaultCode) : (raiseFault c s).hist = s.hist := rfl
@[simp] theorem raiseFault_trace (c : FaultCode) : (raiseFault c s).trace = s.trace := rfl
@[simp] theorem raiseFault_mark (c : FaultCode) : (raiseFault c s).mark = .fault c := rfl
@[simp] theorem raiseFault_params (c : FaultCode) : (raiseFault c s).params = s.params := rfl
@[simp] theorem raiseFault_env (c : FaultCode) : (raiseFault c s).env = s.env := rfl

/-! `dropReply`. -/

@[simp] theorem dropReply_fsm : (dropReply s).fsm = s.fsm := rfl
@[simp] theorem dropReply_clk : (dropReply s).clk = s.clk := rfl
@[simp] theorem dropReply_rst : (dropReply s).rst = s.rst := rfl
@[simp] theorem dropReply_int : (dropReply s).int = s.int := rfl
@[simp] theorem dropReply_nmi : (dropReply s).nmi = s.nmi := rfl
@[simp] theorem dropReply_dir : (dropReply s).dir = s.dir := rfl
@[simp] theorem dropReply_dout : (dropReply s).dout = s.dout := rfl
@[simp] theorem dropReply_prevRd : (dropReply s).prevRd = s.prevRd := rfl
@[simp] theorem dropReply_prevWr : (dropReply s).prevWr = s.prevWr := rfl
@[simp] theorem dropReply_cnt : (dropReply s).cnt = s.cnt := rfl
@[simp] theorem dropReply_ht : (dropReply s).ht = s.ht := rfl
@[simp] theorem dropReply_dbg : (dropReply s).dbg = s.dbg := rfl
@[simp] theorem dropReply_sink : (dropReply s).sink = s.sink := rfl
@[simp] theorem dropReply_snap : (dropReply s).snap = s.snap := rfl
@[simp] theorem dropReply_hist : (dropReply s).hist = s.hist := rfl
@[simp] theorem dropReply_trace : (dropReply s).trace = s.trace := rfl
@[simp] theorem dropReply_mark : (dropReply s).mark = s.mark := rfl
@[simp] theorem dropReply_params : (dropReply s).params = s.params := rfl
@[simp] theorem dropReply_env :
    (dropReply s).env = { s.env with replies := s.env.replies.tail, draws := s.env.draws + 1 } := rfl

/-! `logRecord`. -/

@[simp] theorem logRecord_fsm (k : Kind) (l : Location) (v : Byte) (w : Served) (h : Half) :
    (logRecord k l v w h s).fsm = s.fsm := rfl
@[simp] theorem logRecord_clk (k : Kind) (l : Location) (v : Byte) (w : Served) (h : Half) :
    (logRecord k l v w h s).clk = s.clk := rfl
@[simp] theorem logRecord_rst (k : Kind) (l : Location) (v : Byte) (w : Served) (h : Half) :
    (logRecord k l v w h s).rst = s.rst := rfl
@[simp] theorem logRecord_int (k : Kind) (l : Location) (v : Byte) (w : Served) (h : Half) :
    (logRecord k l v w h s).int = s.int := rfl
@[simp] theorem logRecord_nmi (k : Kind) (l : Location) (v : Byte) (w : Served) (h : Half) :
    (logRecord k l v w h s).nmi = s.nmi := rfl
@[simp] theorem logRecord_dir (k : Kind) (l : Location) (v : Byte) (w : Served) (h : Half) :
    (logRecord k l v w h s).dir = s.dir := rfl
@[simp] theorem logRecord_dout (k : Kind) (l : Location) (v : Byte) (w : Served) (h : Half) :
    (logRecord k l v w h s).dout = s.dout := rfl
@[simp] theorem logRecord_prevRd (k : Kind) (l : Location) (v : Byte) (w : Served) (h : Half) :
    (logRecord k l v w h s).prevRd = s.prevRd := rfl
@[simp] theorem logRecord_prevWr (k : Kind) (l : Location) (v : Byte) (w : Served) (h : Half) :
    (logRecord k l v w h s).prevWr = s.prevWr := rfl
@[simp] theorem logRecord_cnt (k : Kind) (l : Location) (v : Byte) (w : Served) (h : Half) :
    (logRecord k l v w h s).cnt = s.cnt := rfl
@[simp] theorem logRecord_ht (k : Kind) (l : Location) (v : Byte) (w : Served) (h : Half) :
    (logRecord k l v w h s).ht = s.ht := rfl
@[simp] theorem logRecord_dbg (k : Kind) (l : Location) (v : Byte) (w : Served) (h : Half) :
    (logRecord k l v w h s).dbg = s.dbg := rfl
@[simp] theorem logRecord_sink (k : Kind) (l : Location) (v : Byte) (w : Served) (h : Half) :
    (logRecord k l v w h s).sink = s.sink := rfl
@[simp] theorem logRecord_snap (k : Kind) (l : Location) (v : Byte) (w : Served) (h : Half) :
    (logRecord k l v w h s).snap = s.snap := rfl
@[simp] theorem logRecord_hist (k : Kind) (l : Location) (v : Byte) (w : Served) (h : Half) :
    (logRecord k l v w h s).hist = s.hist ++ [⟨k, l, v, w, s.cnt, h⟩] := rfl
@[simp] theorem logRecord_trace (k : Kind) (l : Location) (v : Byte) (w : Served) (h : Half) :
    (logRecord k l v w h s).trace = s.trace := rfl
@[simp] theorem logRecord_mark (k : Kind) (l : Location) (v : Byte) (w : Served) (h : Half) :
    (logRecord k l v w h s).mark = s.mark := rfl
@[simp] theorem logRecord_params (k : Kind) (l : Location) (v : Byte) (w : Served) (h : Half) :
    (logRecord k l v w h s).params = s.params := rfl
@[simp] theorem logRecord_env (k : Kind) (l : Location) (v : Byte) (w : Served) (h : Half) :
    (logRecord k l v w h s).env = s.env := rfl

/-! `latchData`. -/

@[simp] theorem latchData_fsm (v : Byte) : (latchData v s).fsm = s.fsm := rfl
@[simp] theorem latchData_clk (v : Byte) : (latchData v s).clk = s.clk := rfl
@[simp] theorem latchData_rst (v : Byte) : (latchData v s).rst = s.rst := rfl
@[simp] theorem latchData_int (v : Byte) : (latchData v s).int = s.int := rfl
@[simp] theorem latchData_nmi (v : Byte) : (latchData v s).nmi = s.nmi := rfl
@[simp] theorem latchData_dir (v : Byte) : (latchData v s).dir = s.dir := rfl
@[simp] theorem latchData_dout (v : Byte) : (latchData v s).dout = v := rfl
@[simp] theorem latchData_prevRd (v : Byte) : (latchData v s).prevRd = s.prevRd := rfl
@[simp] theorem latchData_prevWr (v : Byte) : (latchData v s).prevWr = s.prevWr := rfl
@[simp] theorem latchData_cnt (v : Byte) : (latchData v s).cnt = s.cnt := rfl
@[simp] theorem latchData_ht (v : Byte) : (latchData v s).ht = s.ht := rfl
@[simp] theorem latchData_dbg (v : Byte) : (latchData v s).dbg = s.dbg := rfl
@[simp] theorem latchData_sink (v : Byte) : (latchData v s).sink = s.sink := rfl
@[simp] theorem latchData_snap (v : Byte) : (latchData v s).snap = s.snap := rfl
@[simp] theorem latchData_hist (v : Byte) : (latchData v s).hist = s.hist := rfl
@[simp] theorem latchData_trace (v : Byte) : (latchData v s).trace = s.trace := rfl
@[simp] theorem latchData_mark (v : Byte) : (latchData v s).mark = s.mark := rfl
@[simp] theorem latchData_params (v : Byte) : (latchData v s).params = s.params := rfl
@[simp] theorem latchData_env (v : Byte) : (latchData v s).env = s.env := rfl

/-! `driveClock`. -/

@[simp] theorem driveClock_fsm (h : Half) : (driveClock h s).fsm = s.fsm := rfl
@[simp] theorem driveClock_clk_hi : (driveClock .hi s).clk = true := rfl
@[simp] theorem driveClock_clk_lo : (driveClock .lo s).clk = false := rfl
@[simp] theorem driveClock_rst (h : Half) : (driveClock h s).rst = s.rst := rfl
@[simp] theorem driveClock_int (h : Half) : (driveClock h s).int = s.int := rfl
@[simp] theorem driveClock_nmi (h : Half) : (driveClock h s).nmi = s.nmi := rfl
@[simp] theorem driveClock_dir (h : Half) : (driveClock h s).dir = s.dir := rfl
@[simp] theorem driveClock_dout (h : Half) : (driveClock h s).dout = s.dout := rfl
@[simp] theorem driveClock_prevRd (h : Half) : (driveClock h s).prevRd = s.prevRd := rfl
@[simp] theorem driveClock_prevWr (h : Half) : (driveClock h s).prevWr = s.prevWr := rfl
@[simp] theorem driveClock_cnt (h : Half) : (driveClock h s).cnt = s.cnt := rfl
@[simp] theorem driveClock_ht (h : Half) : (driveClock h s).ht = s.ht := rfl
@[simp] theorem driveClock_dbg (h : Half) : (driveClock h s).dbg = s.dbg := rfl
@[simp] theorem driveClock_sink (h : Half) : (driveClock h s).sink = s.sink := rfl
@[simp] theorem driveClock_snap (h : Half) : (driveClock h s).snap = s.snap := rfl
@[simp] theorem driveClock_hist (h : Half) : (driveClock h s).hist = s.hist := rfl
@[simp] theorem driveClock_trace (h : Half) : (driveClock h s).trace = s.trace := rfl
@[simp] theorem driveClock_mark (h : Half) : (driveClock h s).mark = s.mark := rfl
@[simp] theorem driveClock_params (h : Half) : (driveClock h s).params = s.params := rfl
@[simp] theorem driveClock_env (h : Half) : (driveClock h s).env = s.env := rfl

/-! `presentPins`. -/

@[simp] theorem presentPins_fsm : (presentPins s).fsm = s.fsm := rfl
@[simp] theorem presentPins_clk : (presentPins s).clk = s.clk := rfl
@[simp] theorem presentPins_rst : (presentPins s).rst = s.rst := rfl
@[simp] theorem presentPins_int : (presentPins s).int = s.int := rfl
@[simp] theorem presentPins_nmi : (presentPins s).nmi = s.nmi := rfl
@[simp] theorem presentPins_dir : (presentPins s).dir = s.dir := rfl
@[simp] theorem presentPins_dout : (presentPins s).dout = s.dout := rfl
@[simp] theorem presentPins_prevRd : (presentPins s).prevRd = s.prevRd := rfl
@[simp] theorem presentPins_prevWr : (presentPins s).prevWr = s.prevWr := rfl
@[simp] theorem presentPins_cnt : (presentPins s).cnt = s.cnt := rfl
@[simp] theorem presentPins_ht : (presentPins s).ht = s.ht := rfl
@[simp] theorem presentPins_dbg : (presentPins s).dbg = s.dbg := rfl
@[simp] theorem presentPins_sink : (presentPins s).sink = s.sink := rfl
@[simp] theorem presentPins_snap : (presentPins s).snap = s.snap := rfl
@[simp] theorem presentPins_hist : (presentPins s).hist = s.hist := rfl
@[simp] theorem presentPins_trace : (presentPins s).trace = s.trace := rfl
@[simp] theorem presentPins_mark : (presentPins s).mark = s.mark := rfl
@[simp] theorem presentPins_params : (presentPins s).params = s.params := rfl
@[simp] theorem presentPins_env :
    (presentPins s).env = { s.env with pinsNow := nextPins s, pins := s.env.pins.tail, draws := s.env.draws + 1 } := rfl

/-! `sample`. -/

@[simp] theorem sample_fsm : (sample s).fsm = s.fsm := rfl
@[simp] theorem sample_clk : (sample s).clk = s.clk := rfl
@[simp] theorem sample_rst : (sample s).rst = s.rst := rfl
@[simp] theorem sample_int : (sample s).int = s.int := rfl
@[simp] theorem sample_nmi : (sample s).nmi = s.nmi := rfl
@[simp] theorem sample_dir : (sample s).dir = s.dir := rfl
@[simp] theorem sample_dout : (sample s).dout = s.dout := rfl
@[simp] theorem sample_prevRd : (sample s).prevRd = s.prevRd := rfl
@[simp] theorem sample_prevWr : (sample s).prevWr = s.prevWr := rfl
@[simp] theorem sample_cnt : (sample s).cnt = s.cnt := rfl
@[simp] theorem sample_ht : (sample s).ht = s.ht := rfl
@[simp] theorem sample_dbg : (sample s).dbg = s.dbg := rfl
@[simp] theorem sample_sink : (sample s).sink = s.sink := rfl
@[simp] theorem sample_snap_d : (sample s).snap.d = readDataPins s s.env.pinsNow.d := rfl
@[simp] theorem sample_snap_rd : (sample s).snap.rd = s.env.pinsNow.rd := rfl
@[simp] theorem sample_snap_wr : (sample s).snap.wr = s.env.pinsNow.wr := rfl
@[simp] theorem sample_snap_mreq : (sample s).snap.mreq = s.env.pinsNow.mreq := rfl
@[simp] theorem sample_snap_iorq : (sample s).snap.iorq = s.env.pinsNow.iorq := rfl
@[simp] theorem sample_snap_m1 : (sample s).snap.m1 = s.env.pinsNow.m1 := rfl
@[simp] theorem sample_snap_rfsh : (sample s).snap.rfsh = s.env.pinsNow.rfsh := rfl
@[simp] theorem sample_snap_rst : (sample s).snap.rst = s.rst := rfl
@[simp] theorem sample_snap_int : (sample s).snap.int = s.int := rfl
@[simp] theorem sample_snap_nmi : (sample s).snap.nmi = s.nmi := rfl
@[simp] theorem sample_snap_clk : (sample s).snap.clk = s.clk := rfl
@[simp] theorem sample_hist : (sample s).hist = s.hist := rfl
@[simp] theorem sample_trace : (sample s).trace = s.trace := rfl
@[simp] theorem sample_mark : (sample s).mark = s.mark := rfl
@[simp] theorem sample_params : (sample s).params = s.params := rfl
@[simp] theorem sample_env : (sample s).env = s.env := rfl

/-! `turnBus`. -/

@[simp] theorem turnBus_fsm (d : Dir) : (turnBus d s).fsm = s.fsm := rfl
@[simp] theorem turnBus_clk (d : Dir) : (turnBus d s).clk = s.clk := rfl
@[simp] theorem turnBus_rst (d : Dir) : (turnBus d s).rst = s.rst := rfl
@[simp] theorem turnBus_int (d : Dir) : (turnBus d s).int = s.int := rfl
@[simp] theorem turnBus_nmi (d : Dir) : (turnBus d s).nmi = s.nmi := rfl
@[simp] theorem turnBus_dir (d : Dir) : (turnBus d s).dir = d := rfl
@[simp] theorem turnBus_dout (d : Dir) : (turnBus d s).dout = s.dout := rfl
@[simp] theorem turnBus_prevRd (d : Dir) : (turnBus d s).prevRd = s.prevRd := rfl
@[simp] theorem turnBus_prevWr (d : Dir) : (turnBus d s).prevWr = s.prevWr := rfl
@[simp] theorem turnBus_cnt (d : Dir) : (turnBus d s).cnt = s.cnt := rfl
@[simp] theorem turnBus_ht (d : Dir) : (turnBus d s).ht = s.ht := rfl
@[simp] theorem turnBus_dbg (d : Dir) : (turnBus d s).dbg = s.dbg := rfl
@[simp] theorem turnBus_sink (d : Dir) : (turnBus d s).sink = s.sink := rfl
@[simp] theorem turnBus_snap (d : Dir) : (turnBus d s).snap = s.snap := rfl
@[simp] theorem turnBus_hist (d : Dir) : (turnBus d s).hist = s.hist := rfl
@[simp] theorem turnBus_trace (d : Dir) : (turnBus d s).trace = s.trace := rfl
@[simp] theorem turnBus_mark (d : Dir) : (turnBus d s).mark = s.mark := rfl
@[simp] theorem turnBus_params (d : Dir) : (turnBus d s).params = s.params := rfl
@[simp] theorem turnBus_env (d : Dir) : (turnBus d s).env = s.env := rfl

/-! `readData`. -/

@[simp] theorem readData_fsm : (readData s).fsm = s.fsm := rfl
@[simp] theorem readData_clk : (readData s).clk = s.clk := rfl
@[simp] theorem readData_rst : (readData s).rst = s.rst := rfl
@[simp] theorem readData_int : (readData s).int = s.int := rfl
@[simp] theorem readData_nmi : (readData s).nmi = s.nmi := rfl
@[simp] theorem readData_dir : (readData s).dir = s.dir := rfl
@[simp] theorem readData_dout : (readData s).dout = s.dout := rfl
@[simp] theorem readData_prevRd : (readData s).prevRd = s.prevRd := rfl
@[simp] theorem readData_prevWr : (readData s).prevWr = s.prevWr := rfl
@[simp] theorem readData_cnt : (readData s).cnt = s.cnt := rfl
@[simp] theorem readData_ht : (readData s).ht = s.ht := rfl
@[simp] theorem readData_dbg : (readData s).dbg = s.dbg := rfl
@[simp] theorem readData_sink : (readData s).sink = s.sink := rfl
@[simp] theorem readData_snap : (readData s).snap = { s.snap with d := readDataPins s s.env.pinsNow.d } := rfl
@[simp] theorem readData_hist : (readData s).hist = s.hist := rfl
@[simp] theorem readData_trace : (readData s).trace = s.trace := rfl
@[simp] theorem readData_mark : (readData s).mark = s.mark := rfl
@[simp] theorem readData_params : (readData s).params = s.params := rfl
@[simp] theorem readData_env : (readData s).env = s.env := rfl

/-! `takeWriteData`. -/

@[simp] theorem takeWriteData_fsm : (takeWriteData s).fsm = s.fsm := rfl
@[simp] theorem takeWriteData_clk : (takeWriteData s).clk = s.clk := rfl
@[simp] theorem takeWriteData_rst : (takeWriteData s).rst = s.rst := rfl
@[simp] theorem takeWriteData_int : (takeWriteData s).int = s.int := rfl
@[simp] theorem takeWriteData_nmi : (takeWriteData s).nmi = s.nmi := rfl
@[simp] theorem takeWriteData_dir : (takeWriteData s).dir = .input := rfl
@[simp] theorem takeWriteData_dout : (takeWriteData s).dout = s.dout := rfl
@[simp] theorem takeWriteData_prevRd : (takeWriteData s).prevRd = s.prevRd := rfl
@[simp] theorem takeWriteData_prevWr : (takeWriteData s).prevWr = s.prevWr := rfl
@[simp] theorem takeWriteData_cnt : (takeWriteData s).cnt = s.cnt := rfl
@[simp] theorem takeWriteData_ht : (takeWriteData s).ht = s.ht := rfl
@[simp] theorem takeWriteData_dbg : (takeWriteData s).dbg = s.dbg := rfl
@[simp] theorem takeWriteData_sink : (takeWriteData s).sink = s.sink := rfl
@[simp] theorem takeWriteData_snap : (takeWriteData s).snap = { s.snap with d := s.env.pinsNow.d } := rfl
@[simp] theorem takeWriteData_hist : (takeWriteData s).hist = s.hist := rfl
@[simp] theorem takeWriteData_trace : (takeWriteData s).trace = s.trace := rfl
@[simp] theorem takeWriteData_mark : (takeWriteData s).mark = s.mark := rfl
@[simp] theorem takeWriteData_params : (takeWriteData s).params = s.params := rfl
@[simp] theorem takeWriteData_env : (takeWriteData s).env = s.env := rfl

/-! `latchStrobes`. -/

@[simp] theorem latchStrobes_fsm : (latchStrobes s).fsm = s.fsm := rfl
@[simp] theorem latchStrobes_clk : (latchStrobes s).clk = s.clk := rfl
@[simp] theorem latchStrobes_rst : (latchStrobes s).rst = s.rst := rfl
@[simp] theorem latchStrobes_int : (latchStrobes s).int = s.int := rfl
@[simp] theorem latchStrobes_nmi : (latchStrobes s).nmi = s.nmi := rfl
@[simp] theorem latchStrobes_dir : (latchStrobes s).dir = s.dir := rfl
@[simp] theorem latchStrobes_dout : (latchStrobes s).dout = s.dout := rfl
@[simp] theorem latchStrobes_prevRd : (latchStrobes s).prevRd = s.snap.rd := rfl
@[simp] theorem latchStrobes_prevWr : (latchStrobes s).prevWr = s.snap.wr := rfl
@[simp] theorem latchStrobes_cnt : (latchStrobes s).cnt = s.cnt := rfl
@[simp] theorem latchStrobes_ht : (latchStrobes s).ht = s.ht := rfl
@[simp] theorem latchStrobes_dbg : (latchStrobes s).dbg = s.dbg := rfl
@[simp] theorem latchStrobes_sink : (latchStrobes s).sink = s.sink := rfl
@[simp] theorem latchStrobes_snap : (latchStrobes s).snap = s.snap := rfl
@[simp] theorem latchStrobes_hist : (latchStrobes s).hist = s.hist := rfl
@[simp] theorem latchStrobes_trace : (latchStrobes s).trace = s.trace := rfl
@[simp] theorem latchStrobes_mark : (latchStrobes s).mark = s.mark := rfl
@[simp] theorem latchStrobes_params : (latchStrobes s).params = s.params := rfl
@[simp] theorem latchStrobes_env : (latchStrobes s).env = s.env := rfl

/-! `holdDirection`. -/

@[simp] theorem holdDirection_fsm : (holdDirection s).fsm = s.fsm := rfl
@[simp] theorem holdDirection_clk : (holdDirection s).clk = s.clk := rfl
@[simp] theorem holdDirection_rst : (holdDirection s).rst = s.rst := rfl
@[simp] theorem holdDirection_int : (holdDirection s).int = s.int := rfl
@[simp] theorem holdDirection_nmi : (holdDirection s).nmi = s.nmi := rfl
@[simp] theorem holdDirection_dir : (holdDirection s).dir = holdDir s.snap := rfl
@[simp] theorem holdDirection_dout : (holdDirection s).dout = s.dout := rfl
@[simp] theorem holdDirection_prevRd : (holdDirection s).prevRd = s.prevRd := rfl
@[simp] theorem holdDirection_prevWr : (holdDirection s).prevWr = s.prevWr := rfl
@[simp] theorem holdDirection_cnt : (holdDirection s).cnt = s.cnt := rfl
@[simp] theorem holdDirection_ht : (holdDirection s).ht = s.ht := rfl
@[simp] theorem holdDirection_dbg : (holdDirection s).dbg = s.dbg := rfl
@[simp] theorem holdDirection_sink : (holdDirection s).sink = s.sink := rfl
@[simp] theorem holdDirection_snap : (holdDirection s).snap = s.snap := rfl
@[simp] theorem holdDirection_hist : (holdDirection s).hist = s.hist := rfl
@[simp] theorem holdDirection_trace : (holdDirection s).trace = s.trace := rfl
@[simp] theorem holdDirection_mark : (holdDirection s).mark = s.mark := rfl
@[simp] theorem holdDirection_params : (holdDirection s).params = s.params := rfl
@[simp] theorem holdDirection_env : (holdDirection s).env = s.env := rfl

/-! `setFsm`. -/

@[simp] theorem setFsm_fsm (f : Fsm) : (setFsm f s).fsm = f := rfl
@[simp] theorem setFsm_clk (f : Fsm) : (setFsm f s).clk = s.clk := rfl
@[simp] theorem setFsm_rst (f : Fsm) : (setFsm f s).rst = s.rst := rfl
@[simp] theorem setFsm_int (f : Fsm) : (setFsm f s).int = s.int := rfl
@[simp] theorem setFsm_nmi (f : Fsm) : (setFsm f s).nmi = s.nmi := rfl
@[simp] theorem setFsm_dir (f : Fsm) : (setFsm f s).dir = s.dir := rfl
@[simp] theorem setFsm_dout (f : Fsm) : (setFsm f s).dout = s.dout := rfl
@[simp] theorem setFsm_prevRd (f : Fsm) : (setFsm f s).prevRd = s.prevRd := rfl
@[simp] theorem setFsm_prevWr (f : Fsm) : (setFsm f s).prevWr = s.prevWr := rfl
@[simp] theorem setFsm_cnt (f : Fsm) : (setFsm f s).cnt = s.cnt := rfl
@[simp] theorem setFsm_ht (f : Fsm) : (setFsm f s).ht = s.ht := rfl
@[simp] theorem setFsm_dbg (f : Fsm) : (setFsm f s).dbg = s.dbg := rfl
@[simp] theorem setFsm_sink (f : Fsm) : (setFsm f s).sink = s.sink := rfl
@[simp] theorem setFsm_snap (f : Fsm) : (setFsm f s).snap = s.snap := rfl
@[simp] theorem setFsm_hist (f : Fsm) : (setFsm f s).hist = s.hist := rfl
@[simp] theorem setFsm_trace (f : Fsm) : (setFsm f s).trace = s.trace := rfl
@[simp] theorem setFsm_mark (f : Fsm) : (setFsm f s).mark = s.mark := rfl
@[simp] theorem setFsm_params (f : Fsm) : (setFsm f s).params = s.params := rfl
@[simp] theorem setFsm_env (f : Fsm) : (setFsm f s).env = s.env := rfl

/-! `countCycle`. -/

@[simp] theorem countCycle_fsm : (countCycle s).fsm = s.fsm := rfl
@[simp] theorem countCycle_clk : (countCycle s).clk = s.clk := rfl
@[simp] theorem countCycle_rst : (countCycle s).rst = s.rst := rfl
@[simp] theorem countCycle_int : (countCycle s).int = s.int := rfl
@[simp] theorem countCycle_nmi : (countCycle s).nmi = s.nmi := rfl
@[simp] theorem countCycle_dir : (countCycle s).dir = s.dir := rfl
@[simp] theorem countCycle_dout : (countCycle s).dout = s.dout := rfl
@[simp] theorem countCycle_prevRd : (countCycle s).prevRd = s.prevRd := rfl
@[simp] theorem countCycle_prevWr : (countCycle s).prevWr = s.prevWr := rfl
@[simp] theorem countCycle_cnt : (countCycle s).cnt = s.cnt + 1 := rfl
@[simp] theorem countCycle_ht : (countCycle s).ht = s.ht := rfl
@[simp] theorem countCycle_dbg : (countCycle s).dbg = s.dbg := rfl
@[simp] theorem countCycle_sink : (countCycle s).sink = s.sink := rfl
@[simp] theorem countCycle_snap : (countCycle s).snap = s.snap := rfl
@[simp] theorem countCycle_hist : (countCycle s).hist = s.hist := rfl
@[simp] theorem countCycle_trace : (countCycle s).trace = s.trace := rfl
@[simp] theorem countCycle_mark : (countCycle s).mark = s.mark := rfl
@[simp] theorem countCycle_params : (countCycle s).params = s.params := rfl
@[simp] theorem countCycle_env : (countCycle s).env = s.env := rfl

/-! `startReset`. -/

@[simp] theorem startReset_fsm : (startReset s).fsm = .run s.params.resetCycles .hi .reset := rfl
@[simp] theorem startReset_clk : (startReset s).clk = s.clk := rfl
@[simp] theorem startReset_rst : (startReset s).rst = true := rfl
@[simp] theorem startReset_int : (startReset s).int = false := rfl
@[simp] theorem startReset_nmi : (startReset s).nmi = false := rfl
@[simp] theorem startReset_dir : (startReset s).dir = s.dir := rfl
@[simp] theorem startReset_dout : (startReset s).dout = s.dout := rfl
@[simp] theorem startReset_prevRd : (startReset s).prevRd = s.prevRd := rfl
@[simp] theorem startReset_prevWr : (startReset s).prevWr = s.prevWr := rfl
@[simp] theorem startReset_cnt : (startReset s).cnt = s.cnt := rfl
@[simp] theorem startReset_ht : (startReset s).ht = s.ht := rfl
@[simp] theorem startReset_dbg : (startReset s).dbg = s.dbg := rfl
@[simp] theorem startReset_sink : (startReset s).sink = s.sink := rfl
@[simp] theorem startReset_snap : (startReset s).snap = s.snap := rfl
@[simp] theorem startReset_hist : (startReset s).hist = s.hist := rfl
@[simp] theorem startReset_trace : (startReset s).trace = s.trace := rfl
@[simp] theorem startReset_mark : (startReset s).mark = s.mark := rfl
@[simp] theorem startReset_params : (startReset s).params = s.params := rfl
@[simp] theorem startReset_env : (startReset s).env = s.env := rfl

/-! `idleStep`. -/

@[simp] theorem idleStep_fsm : (idleStep s).fsm = s.fsm := rfl
@[simp] theorem idleStep_clk : (idleStep s).clk = false := rfl
@[simp] theorem idleStep_rst : (idleStep s).rst = false := rfl
@[simp] theorem idleStep_int : (idleStep s).int = false := rfl
@[simp] theorem idleStep_nmi : (idleStep s).nmi = false := rfl
@[simp] theorem idleStep_dir : (idleStep s).dir = .input := rfl
@[simp] theorem idleStep_dout : (idleStep s).dout = Config.doutInit := rfl
@[simp] theorem idleStep_prevRd : (idleStep s).prevRd = false := rfl
@[simp] theorem idleStep_prevWr : (idleStep s).prevWr = false := rfl
@[simp] theorem idleStep_cnt : (idleStep s).cnt = Config.cntInit := rfl
@[simp] theorem idleStep_ht : (idleStep s).ht = emptyTable := rfl
@[simp] theorem idleStep_dbg : (idleStep s).dbg = 0 := rfl
@[simp] theorem idleStep_sink : (idleStep s).sink = emptySlot := rfl
@[simp] theorem idleStep_snap : (idleStep s).snap = s.snap := rfl
@[simp] theorem idleStep_hist : (idleStep s).hist = [] := rfl
@[simp] theorem idleStep_trace : (idleStep s).trace = [] := rfl
@[simp] theorem idleStep_mark : (idleStep s).mark = .none := rfl
@[simp] theorem idleStep_params : (idleStep s).params = s.params := rfl
@[simp] theorem idleStep_env : (idleStep s).env = s.env := rfl

/-! `popCommand`. -/

@[simp] theorem popCommand_fsm : (popCommand s).fsm = s.fsm := rfl
@[simp] theorem popCommand_clk : (popCommand s).clk = s.clk := rfl
@[simp] theorem popCommand_rst : (popCommand s).rst = s.rst := rfl
@[simp] theorem popCommand_int : (popCommand s).int = s.int := rfl
@[simp] theorem popCommand_nmi : (popCommand s).nmi = s.nmi := rfl
@[simp] theorem popCommand_dir : (popCommand s).dir = s.dir := rfl
@[simp] theorem popCommand_dout : (popCommand s).dout = s.dout := rfl
@[simp] theorem popCommand_prevRd : (popCommand s).prevRd = s.prevRd := rfl
@[simp] theorem popCommand_prevWr : (popCommand s).prevWr = s.prevWr := rfl
@[simp] theorem popCommand_cnt : (popCommand s).cnt = s.cnt := rfl
@[simp] theorem popCommand_ht : (popCommand s).ht = s.ht := rfl
@[simp] theorem popCommand_dbg : (popCommand s).dbg = s.dbg := rfl
@[simp] theorem popCommand_sink : (popCommand s).sink = s.sink := rfl
@[simp] theorem popCommand_snap : (popCommand s).snap = s.snap := rfl
@[simp] theorem popCommand_hist : (popCommand s).hist = s.hist := rfl
@[simp] theorem popCommand_trace : (popCommand s).trace = s.trace := rfl
@[simp] theorem popCommand_mark : (popCommand s).mark = s.mark := rfl
@[simp] theorem popCommand_params : (popCommand s).params = s.params := rfl
@[simp] theorem popCommand_env : (popCommand s).env = { s.env with commands := s.env.commands.tail } := rfl

end Sys2Proof.Machine
end

