-- ==== Sys2Proof/Laws/Ops.lean ====
section
/-! SUPPORT. One lemma for each shared operation that says once everything it can do; later proofs cite these
and do not unfold the operations. -/

namespace Sys2Proof.Machine

@[simp] theorem phaseState_go (s : State) : phaseState (.go s) = s := rfl
@[simp] theorem phaseState_halt (s : State) : phaseState (.halt s) = s := rfl
@[simp] theorem phaseThen_go (s : State) (f : State → Phase) : phaseThen (.go s) f = f s := rfl
@[simp] theorem phaseThen_halt (s : State) (f : State → Phase) : phaseThen (.halt s) f = .halt s := rfl

/-- From one environment to a later one of the same half-cycle, with `n` calls between them: commands and
pins are kept, and each call uses up one reply. -/
structure EnvUses (n : Nat) (e e' : Env) : Prop where
  commands : e'.commands = e.commands
  pins     : e'.pins = e.pins
  pinsNow  : e'.pinsNow = e.pinsNow
  replies  : e'.replies = e.replies.drop n

theorem EnvUses.refl (e : Env) : EnvUses 0 e e := ⟨rfl, rfl, rfl, rfl⟩

theorem EnvUses.trans {m n : Nat} {a b c : Env} (h : EnvUses m a b) (k : EnvUses n b c) :
    EnvUses (m + n) a c :=
  ⟨k.commands.trans h.commands, k.pins.trans h.pins, k.pinsNow.trans h.pinsNow,
    by rw [k.replies, h.replies, List.drop_drop]⟩

theorem EnvUses.noReentry {n : Nat} {s t : State} (h : EnvUses n s.env t.env) (q : NoReentry s) :
    NoReentry t :=
  fun r m => q r (List.mem_of_mem_drop (h.replies ▸ m))

/-- No call the core could make stops it: no listed reply holds a command, or no responder and no sink is
installed, so that no call is made. -/
def Quiet (s : State) : Prop :=
  NoReentry s ∨ ((∀ k, (slotOf s.ht k).inst = false) ∧ s.sink.inst = false)

/-- A later state of the same half-cycle is as quiet: it keeps the slots and uses up replies. -/
theorem Quiet.keep {n : Nat} {s t : State} (q : Quiet s) (h : EnvUses n s.env t.env) (ht : t.ht = s.ht)
    (hs : t.sink = s.sink) : Quiet t := by
  rcases q with q | q
  · exact .inl (h.noReentry q)
  · exact .inr (by rw [ht, hs]; exact q)

theorem dropReply_uses (s : State) : EnvUses 1 s.env (dropReply s).env :=
  ⟨rfl, rfl, rfl, by simp⟩

/-! Outcomes of the acceptance operations. -/

/-- In STOPPED there is no next state. -/
theorem noStep_ne_next (s t : State) : noStep s ≠ .next t := by
  unfold noStep; split <;> simp

theorem acceptIdle_idle {s : State} (h : s.fsm = .idle) (f : State → State) :
    acceptIdle f s = .next (f s) := by simp [acceptIdle, h]

theorem acceptIdle_off {s : State} (h : s.fsm = .off) (f : State → State) :
    acceptIdle f s = .next (refuse .notConstructed s) := by simp [acceptIdle, h]

theorem acceptIdle_run {s : State} {n : Nat} {a : Half} {c : Cont} (h : s.fsm = .run n a c)
    (f : State → State) : acceptIdle f s = .next (refuse .busy s) := by simp [acceptIdle, h]

theorem acceptIdle_stopped {s : State} (h : s.fsm = .stopped) (f : State → State) :
    acceptIdle f s = noStep s := by simp [acceptIdle, h]

theorem acceptOff_off {s : State} (h : s.fsm = .off) (f : State → State) :
    acceptOff f s = .next (f s) := by simp [acceptOff, h]

theorem acceptOff_idle {s : State} (h : s.fsm = .idle) (f : State → State) :
    acceptOff f s = .next (refuse .reinit s) := by simp [acceptOff, h]

theorem acceptOff_run {s : State} {n : Nat} {a : Half} {c : Cont} (h : s.fsm = .run n a c)
    (f : State → State) : acceptOff f s = .next (refuse .reinit s) := by simp [acceptOff, h]

theorem acceptOff_stopped {s : State} (h : s.fsm = .stopped) (f : State → State) :
    acceptOff f s = noStep s := by simp [acceptOff, h]

theorem halfCycle_run {s : State} {n : Nat} {a : Half} {c : Cont} (h : s.fsm = .run n a c)
    (body : Half → State → Phase) :
    halfCycle body s = .next (phaseState (phaseThen (body a s) (closeHalf n a c))) := by
  simp [halfCycle, h]

theorem halfCycle_stopped {s : State} (h : s.fsm = .stopped) (body : Half → State → Phase) :
    halfCycle body s = noStep s := by simp [halfCycle, h]

/-! Calls. -/

theorem nextReply_command {s : State} (q : NoReentry s) (v : Byte) : (nextReply v s).command = none := by
  unfold nextReply
  split
  · next r rs h => exact q r (by simp [h])
  · rfl

/-- A call returns, or it stops the core with a refusal, which needs a re-entering party. -/
theorem callWith_cases (v : Byte) (s : State) :
    callWith (nextReply v s) s = .go (dropReply s) ∨
      (¬ NoReentry s ∧ ∃ why, callWith (nextReply v s) s = .halt (refuse why (dropReply s))) := by
  unfold callWith
  cases h : (nextReply v s).command with
  | none => exact .inl rfl
  | some w => exact .inr ⟨fun q => by simp [nextReply_command q v] at h, _, rfl⟩

theorem not_quiet_of_slot {s : State} {k : Kind} (q : ¬ NoReentry s) (h : (slotOf s.ht k).inst = true) :
    ¬ Quiet s := by
  rintro (n | ⟨n, -⟩)
  · exact q n
  · simp [n k] at h

theorem not_quiet_of_sink {s : State} (q : ¬ NoReentry s) (h : s.sink.inst = true) : ¬ Quiet s := by
  rintro (n | ⟨-, n⟩)
  · exact q n
  · simp [n] at h

/-- Everything a read dispatch can do (R193, R194, R198, R264). -/
theorem dispatchRead_cases (k : Kind) (loc : Location) (half : Half) (s : State) :
    ∃ e, EnvUses (slotCalls (slotOf s.ht k)) s.env e ∧
      (dispatchRead k loc half s = .go { s with
          dout := (readOutcome k loc s).1
          hist := s.hist ++ [⟨k, loc, (readOutcome k loc s).1, (readOutcome k loc s).2, s.cnt, half⟩]
          env := e } ∨
        (¬ Quiet s ∧ ∃ why, dispatchRead k loc half s = .halt (refuse why { s with env := e }))) := by
  unfold dispatchRead readOutcome
  by_cases hi : (slotOf s.ht k).inst
  · have hc : slotCalls (slotOf s.ht k) = 1 := by simp [slotCalls, hi]
    refine ⟨_, hc ▸ dropReply_uses s, ?_⟩
    simp only [hi, if_true]
    rcases callWith_cases (Config.readAnswer k (slotOf s.ht k).handle loc s.hist s.env.draws) s with
      h | ⟨q, why, h⟩
    · left; simp only [h, phaseThen_go]; rfl
    · right; exact ⟨not_quiet_of_slot q hi, why, by simp only [h, phaseThen_halt]; rfl⟩
  · have hc : slotCalls (slotOf s.ht k) = 0 := by simp [slotCalls, hi]
    refine ⟨_, hc ▸ EnvUses.refl _, .inl ?_⟩
    simp only [hi]
    rfl

/-- Everything a write dispatch can do (R195, R196, R198, R264). -/
theorem dispatchWrite_cases (k : Kind) (loc : Location) (d : Byte) (half : Half) (s : State) :
    ∃ e, EnvUses (slotCalls (slotOf s.ht k)) s.env e ∧
      (dispatchWrite k loc d half s = .go { s with
          hist := s.hist ++ [⟨k, loc, d, writeServed k s, s.cnt, half⟩]
          env := e } ∨
        (¬ Quiet s ∧ ∃ why, dispatchWrite k loc d half s = .halt (refuse why { s with env := e }))) := by
  unfold dispatchWrite writeServed
  by_cases hi : (slotOf s.ht k).inst
  · have hc : slotCalls (slotOf s.ht k) = 1 := by simp [slotCalls, hi]
    refine ⟨_, hc ▸ dropReply_uses s, ?_⟩
    simp only [hi, if_true]
    rcases callWith_cases 0 s with h | ⟨q, why, h⟩
    · left; simp only [h, phaseThen_go]; rfl
    · right; exact ⟨not_quiet_of_slot q hi, why, by simp only [h, phaseThen_halt]; rfl⟩
  · have hc : slotCalls (slotOf s.ht k) = 0 := by simp [slotCalls, hi]
    refine ⟨_, hc ▸ EnvUses.refl _, .inl ?_⟩
    simp only [hi]
    rfl

/-- Everything one emission can do (R241, R264). -/
theorem emit_cases (line : TraceLine) (s : State) :
    ∃ e, EnvUses 1 s.env e ∧
      (emit line s = .go { s with trace := s.trace ++ [(s.sink.handle, line)], env := e } ∨
        (¬ NoReentry s ∧ ∃ why, emit line s = .halt (refuse why { s with env := e }))) := by
  unfold emit
  refine ⟨_, dropReply_uses s, ?_⟩
  rcases callWith_cases 0 s with h | ⟨q, why, h⟩
  · left; simp only [h, phaseThen_go]; rfl
  · right; exact ⟨q, why, by simp only [h, phaseThen_halt]; rfl⟩

/-- Everything a list of emissions can do: all the lines reach TRACE, or a re-entering sink stops the
core after some of them. -/
theorem emitAll_cases (lines : List TraceLine) (s : State) :
    (∃ e, EnvUses lines.length s.env e ∧ emitAll lines s =
      .go { s with trace := s.trace ++ lines.map (fun l => (s.sink.handle, l)), env := e }) ∨
    (¬ NoReentry s ∧ ∃ n e l why, EnvUses n s.env e ∧
      emitAll lines s = .halt (refuse why { s with trace := s.trace ++ l, env := e })) := by
  induction lines generalizing s with
  | nil => exact .inl ⟨_, EnvUses.refl _, by simp [emitAll]⟩
  | cons line rest ih =>
    obtain ⟨e, k, h | ⟨q, why, h⟩⟩ := emit_cases line s
    · simp only [emitAll, h, phaseThen_go]
      rcases ih { s with trace := s.trace ++ [(s.sink.handle, line)], env := e } with
        ⟨e', k', h'⟩ | ⟨q, n, e', l, why, k', h'⟩
      · refine .inl ⟨e', ?_, by rw [h']; simp⟩
        rw [List.length_cons, Nat.add_comm]
        exact k.trans k'
      · refine .inr ⟨fun r => q (k.noReentry r), _, e', (s.sink.handle, line) :: l, why, k.trans k', ?_⟩
        rw [h']; simp
    · simp only [emitAll, h, phaseThen_halt]
      exact .inr ⟨q, 1, e, [], why, k, by simp⟩

/-- A sink that re-enters: the calls for the first lines return, and the one after them stops the core
(R241, R264). -/
theorem emitAll_reentry {lines : List TraceLine} {s : State} {before rs : List Reply} {v : Byte} {w : CmdWord}
    (h : s.env.replies = before ++ { value := v, command := some w } :: rs)
    (hb : ∀ r ∈ before, r.command = none) (hl : before.length < lines.length) :
    emitAll lines s = .halt (refuse (reentryReason w) { s with
      trace := s.trace ++ (lines.map fun l => (s.sink.handle, l)).take before.length
      env := { s.env with replies := rs, draws := s.env.draws + (before.length + 1) } }) := by
  induction lines generalizing s before with
  | nil => simp at hl
  | cons line rest ih =>
    cases before with
    | nil => simp [emitAll, emit, nextReply, h, callWith, dropReply]
    | cons r before =>
      have hr : r.command = none := hb r List.mem_cons_self
      simp only [emitAll, emit, nextReply, h, callWith, hr, List.cons_append, phaseThen_go]
      rw [ih (before := before) (by simp [h]) (fun x m => hb x (List.mem_cons_of_mem _ m))
        (by simpa using hl)]
      simp [Nat.add_assoc, Nat.add_comm]

/-- The model's lines, with the sink's handle, are those R244 counts. -/
theorem cycleLines_eq (s : State) (h : s.sink.inst = true) :
    (cycleLines s).map (fun l => (s.sink.handle, l)) = linesAtEnd s.rst s := by
  unfold cycleLines linesAtEnd emitHit dbgCycle dbgIo dbgMem dbgVerbose
  by_cases c : s.dbg.getLsbD 0 || s.dbg.getLsbD 1 && s.snap.iorq || s.dbg.getLsbD 2 && s.snap.mreq
  · have c' : s.dbg.getLsbD 0 ∨ (s.dbg.getLsbD 1 ∧ s.snap.iorq) ∨ (s.dbg.getLsbD 2 ∧ s.snap.mreq) := by
      simpa only [Bool.or_eq_true, Bool.and_eq_true, or_assoc] using c
    rw [if_pos c, if_pos (And.intro h c')]
    cases s.dbg.getLsbD 3 <;> rfl
  · have c' : ¬ (s.sink.inst = true ∧
        (s.dbg.getLsbD 0 ∨ (s.dbg.getLsbD 1 ∧ s.snap.iorq) ∨ (s.dbg.getLsbD 2 ∧ s.snap.mreq))) :=
      fun k => c (by simpa only [Bool.or_eq_true, Bool.and_eq_true, or_assoc] using k.2)
    rw [if_neg c, if_neg c']
    rfl

theorem linesAtEnd_noSink (rst : Bool) {s : State} (h : s.sink.inst = false) : linesAtEnd rst s = [] := by
  simp [linesAtEnd, h]

/-- Everything instrumentation can do (R240 to R243, R264): it hands the cycle's lines to the sink, or a
re-entering sink stops the core after some of them. -/
theorem instrument_cases (s : State) :
    (∃ e, EnvUses (linesAtEnd s.rst s).length s.env e ∧
      instrument s = .go { s with trace := s.trace ++ linesAtEnd s.rst s, env := e }) ∨
    (¬ Quiet s ∧ ∃ n e l why, EnvUses n s.env e ∧
      instrument s = .halt (refuse why { s with trace := s.trace ++ l, env := e })) := by
  unfold instrument
  cases h : s.sink.inst with
  | true =>
    rw [if_pos rfl, ← cycleLines_eq s h, List.length_map]
    exact (emitAll_cases _ s).imp id fun ⟨q, r⟩ => ⟨not_quiet_of_sink q h, r⟩
  | false =>
    rw [if_neg (by simp), linesAtEnd_noSink _ h]
    exact .inl ⟨_, EnvUses.refl _, by simp⟩

/-! The end of a half-cycle. -/

/-- The elements a half-cycle never writes (the frame of R142), from `s` to `t`. -/
structure SameRegisters (s t : State) : Prop where
  clk    : t.clk = s.clk
  int    : t.int = s.int
  nmi    : t.nmi = s.nmi
  ht     : t.ht = s.ht
  dbg    : t.dbg = s.dbg
  sink   : t.sink = s.sink
  params : t.params = s.params
  env    : ∃ n, EnvUses n s.env t.env

/-- How a half-cycle may stop the core after its steps 5 and 6: the counter has no next value (R152), or
the sink re-enters (R264). -/
def StopsAtEnd (half : Half) (s t : State) : Prop :=
  half = .lo ∧ t.fsm = .stopped ∧ t.dir = holdDir s.snap ∧ t.prevRd = s.snap.rd ∧ t.prevWr = s.snap.wr ∧
    t.rst = s.rst ∧ SameRegisters s t ∧
    ((s.params.cntMax ≤ s.cnt ∧ t.mark = .fault .cntOverflow ∧ t.cnt = s.cnt ∧ t.trace = s.trace) ∨
     (s.cnt < s.params.cntMax ∧ ¬ Quiet s ∧ (∃ why, t.mark = .refused why) ∧ t.cnt = s.cnt + 1 ∧
       s.trace <+: t.trace))

/-- The next cycle or the end of the run, as values of FSM and RST (R152, R153, R222). -/
theorem nextCycle_eq (rem : Nat) (cont : Cont) (s : State) :
    nextCycle rem cont s =
      { s with fsm := fsmAfter rem .lo cont, rst := rstAfter rem .lo cont s.rst } := by
  unfold nextCycle finishRun fsmAfter rstAfter
  by_cases h : rem = 1 <;> cases cont <;> simp [h, setFsm]

/-- Everything steps 5 to 7 can do (R142, R150, R152, R153, R178): they end the half-cycle, or they stop
the core. DOUT, HIST and SNAP are kept. -/
theorem closeHalf_cases (rem : Nat) (half : Half) (cont : Cont) (s : State) :
    ∃ t, t.dout = s.dout ∧ t.hist = s.hist ∧ t.snap = s.snap ∧
      ((closeHalf rem half cont s = .go t ∧ (half = .lo → s.cnt < s.params.cntMax) ∧
          HalfCycleEnds rem half cont 0 s t) ∨
       (closeHalf rem half cont s = .halt t ∧ StopsAtEnd half s t)) := by
  cases half with
  | hi =>
    refine ⟨setFsm (.run rem .lo cont) (holdDirection (latchStrobes s)), rfl, rfl, rfl,
      .inl ⟨rfl, by simp, ?_⟩⟩
    exact
      { fsm := rfl, prevRd := rfl, prevWr := rfl, dir := rfl, cnt := rfl, trace := rfl, rst := rfl,
        clk := rfl, int := rfl, nmi := rfl, ht := rfl, dbg := rfl, sink := rfl, mark := rfl,
        params := rfl, commands := rfl, pins := rfl, pinsNow := rfl, replies := rfl }
  | lo =>
    by_cases hc : s.params.cntMax ≤ s.cnt
    · refine ⟨raiseFault .cntOverflow (holdDirection (latchStrobes s)), rfl, rfl, rfl, .inr ⟨?_, ?_⟩⟩
      · simp [closeHalf, endOfCycle, cntAtMax, hc]
      · exact ⟨rfl, rfl, rfl, rfl, rfl, rfl,
          { clk := rfl, int := rfl, nmi := rfl, ht := rfl, dbg := rfl, sink := rfl, params := rfl,
            env := ⟨0, EnvUses.refl _⟩ }, .inl ⟨hc, rfl, rfl, rfl⟩⟩
    · have hlt : s.cnt < s.params.cntMax := by omega
      rcases instrument_cases (countCycle (holdDirection (latchStrobes s))) with
        ⟨e, k, h⟩ | ⟨q, n, e, l, why, k, h⟩
      · generalize hu : ({ countCycle (holdDirection (latchStrobes s)) with
            trace := s.trace ++ linesAtEnd s.rst (countCycle (holdDirection (latchStrobes s))),
            env := e } : State) = u
        have hclose : closeHalf rem .lo cont s = .go (nextCycle rem cont u) := by
          simp only [closeHalf, endOfCycle, cntAtMax, holdDirection_params, latchStrobes_params,
            holdDirection_cnt, latchStrobes_cnt, hc, decide_false, Bool.false_eq_true, if_false]
          rw [h]; subst hu; rfl
        rw [nextCycle_eq] at hclose
        refine ⟨_, ?_, ?_, ?_, .inl ⟨hclose, fun _ => hlt, ?_⟩⟩ <;> subst hu
        iterate 3 rfl
        exact
          { fsm := rfl, prevRd := rfl, prevWr := rfl, dir := rfl, cnt := rfl, trace := rfl, rst := rfl,
            clk := rfl, int := rfl, nmi := rfl, ht := rfl, dbg := rfl, sink := rfl, mark := rfl,
            params := rfl, commands := k.commands, pins := k.pins, pinsNow := k.pinsNow,
            replies := by rw [Nat.zero_add]; exact k.replies }
      · refine ⟨refuse why { countCycle (holdDirection (latchStrobes s)) with
          trace := s.trace ++ l, env := e }, rfl, rfl, rfl, .inr ⟨?_, ?_⟩⟩
        · simp only [closeHalf, endOfCycle, cntAtMax, holdDirection_params, latchStrobes_params,
            holdDirection_cnt, latchStrobes_cnt, hc, decide_false, Bool.false_eq_true, if_false]
          rw [h]; rfl
        · exact ⟨rfl, rfl, rfl, rfl, rfl, rfl,
            { clk := rfl, int := rfl, nmi := rfl, ht := rfl, dbg := rfl, sink := rfl, params := rfl,
              env := ⟨n, k⟩ }, .inr ⟨hlt, fun n => q n, ⟨why, rfl⟩, rfl, List.prefix_append _ _⟩⟩

end Sys2Proof.Machine
end

