-- ==== Sys2Proof/Laws/PerInstr.lean ====
section
/-! SUPPORT. Per-instruction laws. Family RowMatch: the encoding of a well-formed instruction matches the
row of the opcode table that stands for it (30_encoding.md R111, R115). -/

namespace Sys2Proof.Laws.RowMatch

/-- The pattern and the mask of an instruction's own row (R111, R115). -/
def rowOf : Instr → InstrWord × InstrWord
  | .init => (.command 0x0000000000, .command 0xFFFFFFFFFF)
  | .advance _ => (.command 0x1000000000, .command 0xFF00000000)
  | .reset => (.command 0x2000000000, .command 0xFFFFFFFFFF)
  | .seth _ _ => (.command 0x3000000000, .command 0xFC00000000)
  | .clrh _ => (.command 0x4000000000, .command 0xFCFFFFFFFF)
  | .setdbg _ => (.command 0x5000000000, .command 0xFFFFFFFFF0)
  | .setsink _ => (.command 0x6000000000, .command 0xFF00000000)
  | .clrsink => (.command 0x7000000000, .command 0xFFFFFFFFFF)
  | .memRead _ _ _ => (.key 0x22, .key 0x32)
  | .ioRead _ _ => (.key 0x21, .key 0x33)
  | .rdNone _ _ => (.key 0x20, .key 0x33)
  | .rdHeld _ _ _ _ => (.key 0x30, .key 0x30)
  | .memWrite _ _ => (.key 0x0A, .key 0x2E)
  | .ioWrite _ => (.key 0x09, .key 0x2F)
  | .wrNone _ => (.key 0x08, .key 0x2F)
  | .wrHeld _ _ _ => (.key 0x0C, .key 0x2C)
  | .idle _ _ _ _ => (.key 0x00, .key 0x28)

/-- A word of a format matches a row of that format: `word & mask = pattern`. -/
def matchesRow : InstrWord → InstrWord × InstrWord → Bool
  | .command w, (.command p, .command m) => w &&& m == p
  | .key k, (.key p, .key m) => k &&& m == p
  | _, _ => false

/-- The encoding of a well-formed instruction matches its own row. -/
def Statement (i : Instr) : Prop := i.wellFormed = true → matchesRow (encode i) (rowOf i) = true

/-- A command word under a mask, both by their fields. -/
theorem masked {op sel op' sel' op'' sel'' : BitVec 4} {arg arg' arg'' : BitVec 32} {m p : CmdWord}
    (hm : m = cmdWord op' sel' arg') (hp : p = cmdWord op'' sel'' arg'')
    (h1 : op &&& op' = op'') (h2 : sel &&& sel' = sel'') (h3 : arg &&& arg' = arg'') :
    (cmdWord op sel arg &&& m == p) = true := by
  rw [hm, hp, cmdWord_and, h1, h2, h3, beq_self_eq_true]

theorem init : Statement .init := fun _ => by decide
theorem advance (n : Nat) : Statement (.advance n) := fun _ =>
  masked (op' := 0xF) (sel' := 0xF) (arg' := 0) (op'' := 1) (sel'' := 0) (arg'' := 0)
    (by decide) (by decide) (by decide) (by decide) (BitVec.and_zero)
theorem reset : Statement .reset := fun _ => by decide
theorem seth (k : Kind) (h : Handle) : Statement (.seth k h) := fun _ =>
  masked (op' := 0xF) (sel' := 0xC) (arg' := 0) (op'' := 3) (sel'' := 0) (arg'' := 0)
    (by decide) (by decide) (by decide) (by cases k <;> decide) (BitVec.and_zero)
theorem clrh (k : Kind) : Statement (.clrh k) := fun _ => by cases k <;> decide
theorem setdbg (m : DbgMask) : Statement (.setdbg m) := fun _ =>
  masked (op' := 0xF) (sel' := 0xF) (arg' := 0xFFFFFFF0) (op'' := 5) (sel'' := 0) (arg'' := 0)
    (by decide) (by decide) (by decide) (by decide) (by revert m; decide)
theorem setsink (h : Handle) : Statement (.setsink h) := fun _ =>
  masked (op' := 0xF) (sel' := 0xF) (arg' := 0) (op'' := 6) (sel'' := 0) (arg'' := 0)
    (by decide) (by decide) (by decide) (by decide) (BitVec.and_zero)
theorem clrsink : Statement .clrsink := fun _ => by decide
theorem memRead (wr prevWr iorq : Bool) : Statement (.memRead wr prevWr iorq) := fun _ => by
  revert wr prevWr iorq; decide
theorem ioRead (wr prevWr : Bool) : Statement (.ioRead wr prevWr) := fun _ => by
  revert wr prevWr; decide
theorem rdNone (wr prevWr : Bool) : Statement (.rdNone wr prevWr) := fun _ => by
  revert wr prevWr; decide
theorem rdHeld (wr prevWr mreq iorq : Bool) : Statement (.rdHeld wr prevWr mreq iorq) := fun _ => by
  revert wr prevWr mreq iorq; decide
theorem memWrite (prevRd iorq : Bool) : Statement (.memWrite prevRd iorq) := fun _ => by
  revert prevRd iorq; decide
theorem ioWrite (prevRd : Bool) : Statement (.ioWrite prevRd) := fun _ => by
  revert prevRd; decide
theorem wrNone (prevRd : Bool) : Statement (.wrNone prevRd) := fun _ => by
  revert prevRd; decide
theorem wrHeld (prevRd mreq iorq : Bool) : Statement (.wrHeld prevRd mreq iorq) := fun _ => by
  revert prevRd mreq iorq; decide
theorem idle (prevRd prevWr mreq iorq : Bool) : Statement (.idle prevRd prevWr mreq iorq) := fun _ => by
  revert prevRd prevWr mreq iorq; decide

end Sys2Proof.Laws.RowMatch
end

