-- ==== Sys2Proof/Laws/Step.lean ====
section
/-! SUPPORT. What one half-cycle of a run can do, said once for all nine classes, and what one step is in
each state of FSM. Invariants and frames are proved from these. -/

namespace Sys2Proof.Machine

@[simp] theorem snapAfter_rd (s : State) : (snapAfter s).rd = s.snap.rd := by
  unfold snapAfter; split <;> rfl

@[simp] theorem snapAfter_wr (s : State) : (snapAfter s).wr = s.snap.wr := by
  unfold snapAfter; split <;> rfl

theorem takeWriteData_eq (s : State) :
    takeWriteData s = { s with dir := .input, snap := { s.snap with d := s.env.pinsNow.d } } := rfl

theorem readOutcome_turnBus (k : Kind) (loc : Location) (d : Dir) (s : State) :
    readOutcome k loc (turnBus d s) = readOutcome k loc s := rfl

/-- A half-cycle with no record calls no responder. -/
theorem responderCalls_nil {half : Half} {u : State} (h : recordOf half u = []) :
    responderCalls half u = 0 := by
  simp [responderCalls, h]

/-- A half-cycle with a read's record calls the slot's responder once, if one is installed. -/
theorem responderCalls_read {half hf : Half} {u : State} {k : Kind} {loc : Location} {v : Byte} {c : Int}
    (h : recordOf half u = [⟨k, loc, v, (readOutcome k loc u).2, c, hf⟩]) :
    responderCalls half u = slotCalls (slotOf u.ht k) := by
  unfold responderCalls slotCalls
  rw [h]
  unfold readOutcome
  cases (slotOf u.ht k).inst <;> rfl

/-- A half-cycle with a write's record calls the slot's responder once, if one is installed. -/
theorem responderCalls_write {half hf : Half} {u : State} {k : Kind} {loc : Location} {v : Byte} {c : Int}
    (h : recordOf half u = [⟨k, loc, v, writeServed k u, c, hf⟩]) :
    responderCalls half u = slotCalls (slotOf u.ht k) := by
  unfold responderCalls slotCalls
  rw [h]
  unfold writeServed
  cases (slotOf u.ht k).inst <;> rfl

/-- The class's own part of a half-cycle goes on with its dispatch done, or a re-entering responder stops
the core before DOUT and HIST are written. -/
def ClassPart (half : Half) (u : State) (b : Phase) : Prop :=
  ∃ e d, EnvUses (responderCalls half u) u.env e ∧
    (b = .go { u with
        dir := d
        dout := dataAfter u
        hist := u.hist ++ recordOf half u
        snap := snapAfter u
        env := e } ∨
      (¬ Quiet u ∧ ∃ why, b = .halt (refuse why { u with dir := d, snap := snapAfter u, env := e })))

/-- The class's own part of every class (R180 to R188), for the class the branches of R175 pick. -/
theorem exec_classify {u : State} {rem : Nat} {half : Half} {cont : Cont} (h : u.fsm = .run rem half cont) :
    ∃ b, exec (classify u.snap u.prevRd u.prevWr) u =
        .next (phaseState (phaseThen b (closeHalf rem half cont))) ∧ ClassPart half u b := by
  by_cases hrd : u.snap.rd = true
  · have h3 : snapAfter u = u.snap := by simp [snapAfter, writeEdge, hrd]
    by_cases hp : u.prevRd = true
    · have h1 : dataAfter u = u.dout := by simp [dataAfter, hrd, hp]
      have h2 : recordOf half u = [] := by simp [recordOf, hrd, hp]
      refine ⟨.go u, ?_, u.env, u.dir, (responderCalls_nil h2).symm ▸ EnvUses.refl _, .inl ?_⟩
      · simp only [classify, hrd, hp, if_true, exec, execRdHeld, halfCycle_run h]
      · rw [h1, h2, h3, List.append_nil]
    · by_cases hm : u.snap.mreq = true
      · have h1 : dataAfter u = (readOutcome .memrd (.mem u.snap.a) u).1 := by
          simp [dataAfter, hrd, hp, hm]
        have h2 : recordOf half u = [⟨.memrd, .mem u.snap.a, (readOutcome .memrd (.mem u.snap.a) u).1,
            (readOutcome .memrd (.mem u.snap.a) u).2, u.cnt, half⟩] := by simp [recordOf, hrd, hp, hm]
        obtain ⟨e, k, hd⟩ := dispatchRead_cases .memrd (.mem u.snap.a) half (turnBus .output u)
        refine ⟨dispatchRead .memrd (.mem u.snap.a) half (turnBus .output u), ?_, e, .output,
          (responderCalls_read h2).symm ▸ k, ?_⟩
        · simp only [classify, hrd, hp, hm, if_true, exec, execMemRead, halfCycle_run h]
          rfl
        · rw [h1, h2, h3]; exact hd
      · by_cases hi : u.snap.iorq = true
        · have h1 : dataAfter u = (readOutcome .iord (.port (portOf u.snap.a)) u).1 := by
            simp [dataAfter, hrd, hp, hm, hi]
          have h2 : recordOf half u = [⟨.iord, .port (portOf u.snap.a),
              (readOutcome .iord (.port (portOf u.snap.a)) u).1,
              (readOutcome .iord (.port (portOf u.snap.a)) u).2, u.cnt, half⟩] := by
            simp [recordOf, hrd, hp, hm, hi]
          obtain ⟨e, k, hd⟩ := dispatchRead_cases .iord (.port (portOf u.snap.a)) half (turnBus .output u)
          refine ⟨dispatchRead .iord (.port (portOf u.snap.a)) half (turnBus .output u), ?_, e, .output,
            (responderCalls_read h2).symm ▸ k, ?_⟩
          · simp only [classify, hrd, hp, hm, hi, if_true, exec, execIoRead, halfCycle_run h]
            rfl
          · rw [h1, h2, h3]; exact hd
        · have h1 : dataAfter u = u.dout := by simp [dataAfter, hrd, hp, hm, hi]
          have h2 : recordOf half u = [] := by simp [recordOf, hrd, hp, hm, hi]
          refine ⟨.go (turnBus .output u), ?_, u.env, .output, (responderCalls_nil h2).symm ▸ EnvUses.refl _, .inl ?_⟩
          · simp only [classify, hrd, hp, hm, hi, if_true, exec, execRdNone, halfCycle_run h]
            rfl
          · rw [h1, h2, h3, List.append_nil]; rfl
  · have hrd' : u.snap.rd = false := by simpa using hrd
    have h1 : dataAfter u = u.dout := by simp [dataAfter, hrd']
    by_cases hw : u.snap.wr = true
    · by_cases hp : u.prevWr = true
      · have h2 : recordOf half u = [] := by simp [recordOf, hrd', hw, hp]
        have h3 : snapAfter u = u.snap := by simp [snapAfter, writeEdge, hp]
        refine ⟨.go u, ?_, u.env, u.dir, (responderCalls_nil h2).symm ▸ EnvUses.refl _, .inl ?_⟩
        · simp only [classify, hrd', hw, hp, if_true, exec, execWrHeld, halfCycle_run h]
          rfl
        · rw [h1, h2, h3, List.append_nil]
      · have hp' : u.prevWr = false := by simpa using hp
        have h3 : snapAfter u = { u.snap with d := u.env.pinsNow.d } := by
          simp [snapAfter, writeEdge, hrd', hw, hp']
        by_cases hm : u.snap.mreq = true
        · have h2 : recordOf half u = [⟨.memwr, .mem u.snap.a, u.env.pinsNow.d, writeServed .memwr u,
              u.cnt, half⟩] := by simp [recordOf, hrd', hw, hp', hm]
          obtain ⟨e, k, hd⟩ :=
            dispatchWrite_cases .memwr (.mem u.snap.a) u.env.pinsNow.d half (takeWriteData u)
          refine ⟨dispatchWrite .memwr (.mem u.snap.a) u.env.pinsNow.d half (takeWriteData u), ?_, e,
            .input, (responderCalls_write h2).symm ▸ k, ?_⟩
          · simp only [classify, hrd', hw, hp', hm, if_true, exec, execMemWrite, halfCycle_run h]
            rfl
          · rw [h1, h2, h3]; exact hd
        · by_cases hi : u.snap.iorq = true
          · have h2 : recordOf half u = [⟨.iowr, .port (portOf u.snap.a), u.env.pinsNow.d,
                writeServed .iowr u, u.cnt, half⟩] := by simp [recordOf, hrd', hw, hp', hm, hi]
            obtain ⟨e, k, hd⟩ :=
              dispatchWrite_cases .iowr (.port (portOf u.snap.a)) u.env.pinsNow.d half (takeWriteData u)
            refine ⟨dispatchWrite .iowr (.port (portOf u.snap.a)) u.env.pinsNow.d half (takeWriteData u),
              ?_, e, .input, (responderCalls_write h2).symm ▸ k, ?_⟩
            · simp only [classify, hrd', hw, hp', hm, hi, if_true, exec, execIoWrite, halfCycle_run h]
              rfl
            · rw [h1, h2, h3]; exact hd
          · have h2 : recordOf half u = [] := by simp [recordOf, hrd', hw, hp', hm, hi]
            refine ⟨.go (takeWriteData u), ?_, u.env, .input, (responderCalls_nil h2).symm ▸ EnvUses.refl _, .inl ?_⟩
            · simp only [classify, hrd', hw, hp', hm, hi, if_true, exec, execWrNone, halfCycle_run h]
              rfl
            · rw [h1, h2, h3, List.append_nil]; rfl
    · have h2 : recordOf half u = [] := by simp [recordOf, hrd', hw]
      have h3 : snapAfter u = u.snap := by simp [snapAfter, writeEdge, hw]
      refine ⟨.go u, ?_, u.env, u.dir, (responderCalls_nil h2).symm ▸ EnvUses.refl _, .inl ?_⟩
      · simp only [classify, hrd', hw, exec, execIdle, halfCycle_run h]
        rfl
      · rw [h1, h2, h3, List.append_nil]

/-- A half-cycle that completes, from the sampled state `u` to `t`. -/
structure HalfCycleDone (rem : Nat) (half : Half) (cont : Cont) (u t : State) : Prop where
  room : half = .lo → u.cnt < u.params.cntMax
  ends : HalfCycleEnds rem half cont (responderCalls half u) u t
  dout : t.dout = dataAfter u
  hist : t.hist = u.hist ++ recordOf half u
  snap : t.snap = snapAfter u

/-- A half-cycle that stops the core, from the sampled state `u` to `t`: inside a call a party re-enters
from (R264), or at the end of a cycle with no next counter value (R152, R263). -/
structure HalfCycleStops (half : Half) (u t : State) : Prop where
  fsm   : t.fsm = .stopped
  mark  : t.mark ≠ .none
  same  : SameRegisters u t
  rst   : t.rst = u.rst
  cnt   : t.cnt = u.cnt ∨ (half = .lo ∧ t.cnt = u.cnt + 1)
  hist  : t.hist = u.hist ∨ t.hist = u.hist ++ recordOf half u
  trace : u.trace <+: t.trace
  dout  : t.dout = u.dout ∨ t.dout = dataAfter u
  overflow : Quiet u → half = .lo ∧ u.params.cntMax ≤ u.cnt ∧ t.mark = .fault .cntOverflow ∧
    t.cnt = u.cnt ∧ t.trace = u.trace ∧ t.hist = u.hist ++ recordOf half u ∧ t.dout = dataAfter u ∧
    t.prevRd = u.snap.rd ∧ t.prevWr = u.snap.wr ∧ t.dir = holdDir u.snap ∧ t.snap = snapAfter u

/-- Everything a half-cycle can do, whatever its class: it always answers a next state, in which it has
completed or has stopped the core. -/
theorem halfCycle_cases {u : State} {rem : Nat} {half : Half} {cont : Cont} (h : u.fsm = .run rem half cont) :
    ∃ t, exec (classify u.snap u.prevRd u.prevWr) u = .next t ∧
      (HalfCycleDone rem half cont u t ∨ HalfCycleStops half u t) := by
  obtain ⟨b, hb, e, d, k, hgo | ⟨q, why, hhalt⟩⟩ := exec_classify h
  · generalize hv : ({ u with
        dir := d
        dout := dataAfter u
        hist := u.hist ++ recordOf half u
        snap := snapAfter u
        env := e } : State) = v at hgo
    obtain ⟨t, h1, h2, h3, ⟨hc, room, ends⟩ | ⟨hc, stop⟩⟩ := closeHalf_cases rem half cont v
    · refine ⟨t, by rw [hb, hgo, phaseThen_go, hc]; rfl, .inl ?_⟩
      subst hv
      exact
        { room := room, dout := h1, hist := h2, snap := h3
          ends :=
            { fsm := ends.fsm, prevRd := ends.prevRd.trans (snapAfter_rd u),
              prevWr := ends.prevWr.trans (snapAfter_wr u), dir := ends.dir.trans (by simp),
              cnt := ends.cnt, trace := ends.trace, rst := ends.rst, clk := ends.clk, int := ends.int,
              nmi := ends.nmi, ht := ends.ht, dbg := ends.dbg, sink := ends.sink, mark := ends.mark,
              params := ends.params, commands := ends.commands.trans k.commands,
              pins := ends.pins.trans k.pins, pinsNow := ends.pinsNow.trans k.pinsNow,
              replies := by
                refine ends.replies.trans ?_
                rw [Nat.zero_add, ← List.drop_drop, ← k.replies] } }
    · refine ⟨t, by rw [hb, hgo, phaseThen_go, hc]; rfl, .inr ?_⟩
      subst hv
      obtain ⟨hlo, f, hdir, hrd, hwr, hrst, same, hwhy⟩ := stop
      refine
        { fsm := f, rst := hrst, hist := .inr h2, dout := .inr h1
          mark := ?_, cnt := ?_, trace := ?_, overflow := ?_
          same :=
            { clk := same.clk, int := same.int, nmi := same.nmi, ht := same.ht, dbg := same.dbg,
              sink := same.sink, params := same.params, env := same.env.imp' _ fun _ => k.trans } }
      · rcases hwhy with ⟨-, m, -⟩ | ⟨-, -, ⟨w, m⟩, -⟩ <;> simp [m]
      · rcases hwhy with ⟨-, -, c, -⟩ | ⟨-, -, -, c, -⟩
        · exact .inl c
        · exact .inr ⟨hlo, c⟩
      · rcases hwhy with ⟨-, -, -, tr⟩ | ⟨-, -, -, -, tr⟩
        · rw [tr]
        · exact tr
      · intro n
        rcases hwhy with ⟨mx, m, c, tr⟩ | ⟨-, q, -⟩
        · exact ⟨hlo, mx, m, c, tr, h2, h1, hrd.trans (snapAfter_rd u), hwr.trans (snapAfter_wr u),
            hdir.trans (by simp [holdDir]), h3⟩
        · exact absurd (n.keep (t := { u with
            dir := d, dout := dataAfter u, hist := u.hist ++ recordOf half u, snap := snapAfter u,
            env := e }) k rfl rfl) q
  · refine ⟨_, by rw [hb, hhalt, phaseThen_halt, phaseState_halt], .inr ?_⟩
    exact
      { fsm := rfl, mark := by simp, rst := rfl, cnt := .inl rfl, hist := .inl rfl, dout := .inl rfl,
        trace := List.prefix_rfl, overflow := fun n => absurd n q,
        same :=
          { clk := rfl, int := rfl, nmi := rfl, ht := rfl, dbg := rfl, sink := rfl, params := rfl,
            env := ⟨_, k⟩ } }

/-! The step in each state of FSM. -/

theorem step_run {s : State} {rem : Nat} {half : Half} {cont : Cont} (h : s.fsm = .run rem half cont) :
    step s = exec (decodeKey (class6 (openHalf half s))) (openHalf half s) := by
  simp [step, fetch, h]

theorem step_stopped {s : State} (h : s.fsm = .stopped) : step s = noStep s := by
  simp [step, fetch, h]

theorem fetch_between {s : State} (h : s.fsm = .off ∨ s.fsm = .idle) : fetch s = fetchCommand s := by
  rcases h with h | h <;> simp [fetch, h]

theorem step_waiting {s : State} (h : s.fsm = .off ∨ s.fsm = .idle) (hc : s.env.commands = []) :
    step s = .next s := by
  simp [step, fetch_between h, fetchCommand, hc]

theorem step_command {s : State} {w : CmdWord} {ws : List CmdWord} {i : Instr}
    (h : s.fsm = .off ∨ s.fsm = .idle) (hc : s.env.commands = w :: ws) (hd : decodeCommand w = .instr i) :
    step s = exec i (popCommand s) := by
  simp [step, fetch_between h, fetchCommand, hc, hd]

theorem step_reserved {s : State} {w : CmdWord} {ws : List CmdWord} {why : Reserved}
    (h : s.fsm = .off ∨ s.fsm = .idle) (hc : s.env.commands = w :: ws)
    (hd : decodeCommand w = .reserved why) :
    step s = .next (refuse .reservedEncoding (popCommand s)) := by
  simp [step, fetch_between h, fetchCommand, hc, hd]

/-- The sampled state: what steps 1 and 2 leave of every element but CLK, SNAP and the inputs. -/
theorem openHalf_eq (half : Half) (s : State) :
    ∃ clk snap env, openHalf half s = { s with clk := clk, snap := snap, env := env } ∧
      clk = (half == .hi) ∧ env.commands = s.env.commands ∧ env.replies = s.env.replies ∧
      env.pins = s.env.pins.tail ∧ env.pinsNow = nextPins (driveClock half s) :=
  ⟨_, _, _, rfl, by cases half <;> rfl, rfl, rfl, rfl, rfl⟩

@[simp] theorem openHalf_fsm (half : Half) (s : State) : (openHalf half s).fsm = s.fsm := rfl
@[simp] theorem openHalf_rst (half : Half) (s : State) : (openHalf half s).rst = s.rst := rfl
@[simp] theorem openHalf_int (half : Half) (s : State) : (openHalf half s).int = s.int := rfl
@[simp] theorem openHalf_nmi (half : Half) (s : State) : (openHalf half s).nmi = s.nmi := rfl
@[simp] theorem openHalf_dir (half : Half) (s : State) : (openHalf half s).dir = s.dir := rfl
@[simp] theorem openHalf_dout (half : Half) (s : State) : (openHalf half s).dout = s.dout := rfl
@[simp] theorem openHalf_prevRd (half : Half) (s : State) : (openHalf half s).prevRd = s.prevRd := rfl
@[simp] theorem openHalf_prevWr (half : Half) (s : State) : (openHalf half s).prevWr = s.prevWr := rfl
@[simp] theorem openHalf_cnt (half : Half) (s : State) : (openHalf half s).cnt = s.cnt := rfl
@[simp] theorem openHalf_ht (half : Half) (s : State) : (openHalf half s).ht = s.ht := rfl
@[simp] theorem openHalf_dbg (half : Half) (s : State) : (openHalf half s).dbg = s.dbg := rfl
@[simp] theorem openHalf_sink (half : Half) (s : State) : (openHalf half s).sink = s.sink := rfl
@[simp] theorem openHalf_hist (half : Half) (s : State) : (openHalf half s).hist = s.hist := rfl
@[simp] theorem openHalf_trace (half : Half) (s : State) : (openHalf half s).trace = s.trace := rfl
@[simp] theorem openHalf_mark (half : Half) (s : State) : (openHalf half s).mark = s.mark := rfl
@[simp] theorem openHalf_params (half : Half) (s : State) : (openHalf half s).params = s.params := rfl
@[simp] theorem openHalf_clk (half : Half) (s : State) : (openHalf half s).clk = (half == .hi) := by
  cases half <;> rfl
@[simp] theorem openHalf_snap_rd (half : Half) (s : State) : (openHalf half s).snap.rd = (nextPins s).rd := rfl
@[simp] theorem openHalf_snap_wr (half : Half) (s : State) : (openHalf half s).snap.wr = (nextPins s).wr := rfl
@[simp] theorem openHalf_snap_mreq (half : Half) (s : State) :
    (openHalf half s).snap.mreq = (nextPins s).mreq := rfl
@[simp] theorem openHalf_snap_iorq (half : Half) (s : State) :
    (openHalf half s).snap.iorq = (nextPins s).iorq := rfl
@[simp] theorem openHalf_snap_rst (half : Half) (s : State) : (openHalf half s).snap.rst = s.rst := rfl

/-- No half-cycle stops a quiet core that has room in its counter. -/
theorem HalfCycleStops.not_quiet {half : Half} {u t : State} (st : HalfCycleStops half u t)
    (room : half = .lo → u.cnt < u.params.cntMax) : ¬ Quiet u := by
  intro q
  obtain ⟨hlo, hmax, -⟩ := st.overflow q
  have := room hlo
  omega

/-! Runs of several steps. -/

theorem run_succ (M : Host.Core) (k : Nat) {s u : M.State} (h : M.step s = .next u) :
    M.run (k + 1) s = M.run k u := by
  simp only [Host.Core.run]; rw [h]

theorem run_of_succ (M : Host.Core) (k : Nat) {s t : M.State} (h : M.run (k + 1) s = .next t) :
    ∃ u, M.step s = .next u ∧ M.run k u = .next t := by
  simp only [Host.Core.run] at h
  cases hs : M.step s with
  | next u => rw [hs] at h; exact ⟨u, rfl, h⟩
  | fault r => rw [hs] at h; cases h
  | refused r => rw [hs] at h; cases h

/-- A run of k + 1 steps is a step and a run of k. -/
theorem runSteps_succ {s u : State} (h : step s = .next u) (k : Nat) : runSteps (k + 1) s = runSteps k u :=
  run_succ Sys2Proof.core k h

theorem runSteps_of_succ {k : Nat} {s t : State} (h : runSteps (k + 1) s = .next t) :
    ∃ u, step s = .next u ∧ runSteps k u = .next t :=
  run_of_succ Sys2Proof.core k h

/-- In STOPPED a run gets no further. -/
theorem runSteps_stopped {k : Nat} {s t : State} (hf : s.fsm = .stopped) (h : runSteps k s = .next t) :
    t = s := by
  cases k with
  | zero => cases h; rfl
  | succ k =>
    obtain ⟨u, hu, -⟩ := runSteps_of_succ h
    rw [step_stopped hf] at hu
    exact absurd hu (noStep_ne_next _ _)

/-! A command's meaning in OFF and in IDLE, all commands at once. -/

theorem isCommand_of_decode {w : CmdWord} {i : Instr} (h : decodeCommand w = .instr i) :
    i.isCommand = true := by
  rw [← cmdWord_fields w, decodeCommand_cmdWord] at h
  split_ifs at h <;> cases h <;> rfl

theorem exec_off {i : Instr} (hi : i.isCommand = true) {s : State} (h : s.fsm = .off) :
    exec i s = .next (if i = .init then startReset (idleStep s) else refuse .notConstructed s) := by
  cases i <;> simp [Instr.isCommand] at hi <;>
    simp [exec, execInit, execAdvance, execReset, execSeth, execClrh, execSetdbg, execSetsink, execClrsink,
      acceptIdle_off h, acceptOff_off h]

end Sys2Proof.Machine
end

