-- ==== Sys2Proof/Laws/Words.lean ====
section
/-! SUPPORT. The bits of the snapshot word and of the pin word, from which their layouts are proved. -/

namespace Sys2Proof.Machine

/-- Every bit of a SNAP40 word (R100). -/
theorem wordOfSnap_bit (s : Snap) (i : Nat) : (wordOfSnap s).getLsbD i =
    if i < 16 then s.a.getLsbD i
    else if i < 24 then s.d.getLsbD (i - 16)
    else if i = 24 then s.rd else if i = 25 then s.wr else if i = 26 then s.mreq
    else if i = 27 then s.iorq else if i = 28 then s.m1 else if i = 29 then s.rfsh
    else if i = 30 then s.rst else if i = 31 then s.int else if i = 32 then s.nmi
    else if i = 33 then s.clk else false := by
  simp only [wordOfSnap, BitVec.getLsbD_cast, BitVec.getLsbD_append, BitVec.getLsbD_ofBool]
  by_cases h : i < 16
  · simp [h]
  · by_cases h' : i < 24
    · have : i - 16 < 8 := by omega
      simp [h, h', this]
    · by_cases h'' : i < 34
      · interval_cases i <;> simp
      · have e : ∀ k, k < 34 → ¬ i = k := by omega
        have z (k : Nat) : ((0 : BitVec 6).getLsbD k) = false := by simp
        simp only [z, h, h', e 24 (by omega), e 25 (by omega), e 26 (by omega), e 27 (by omega),
          e 28 (by omega), e 29 (by omega), e 30 (by omega), e 31 (by omega), e 32 (by omega),
          e 33 (by omega), if_false]
        simp
        (repeat' split) <;> (try intro) <;> omega

/-- Every bit of a PINS30 word (R101). -/
theorem wordOfPins_bit (p : Pins) (i : Nat) : (wordOfPins p).getLsbD i =
    if i < 16 then p.a.getLsbD i
    else if i < 24 then p.d.getLsbD (i - 16)
    else if i = 24 then p.rd else if i = 25 then p.wr else if i = 26 then p.mreq
    else if i = 27 then p.iorq else if i = 28 then p.m1 else if i = 29 then p.rfsh
    else false := by
  by_cases h'' : i < 30
  · simp only [wordOfPins, BitVec.getLsbD_cast, BitVec.getLsbD_append, BitVec.getLsbD_ofBool]
    by_cases h : i < 16
    · simp [h]
    · by_cases h' : i < 24
      · have : i - 16 < 8 := by omega
        simp [h, h', this]
      · interval_cases i <;> simp
  · rw [BitVec.getLsbD_of_ge _ _ (by omega)]
    repeat' split
    all_goals first | rfl | omega

end Sys2Proof.Machine
end

