-- ==== Sys2Proof/Tests/Slice0.lean ====
section
/-! SUPPORT. The model's own tests: ill-formed terms, words written out from the encodings, one-step vectors of
95_test_vectors.md, and a witness of the hypotheses of each statement that has some. -/

namespace Sys2Proof.Tests

open Sys2Proof.Machine

/-! ## Small states and pins -/

/-- S0 of 95_test_vectors.md §0: the core after INIT on a quiet bus. -/
def s0 : State := { State.reset with fsm := .idle, cnt := 3 }

/-- S0 with one command word issued. -/
def issue (w : CmdWord) : State := { s0 with env := { emptyEnv with commands := [w] } }

/-- Pins with instruction-fetch and refresh deasserted. -/
def pins (a : Addr) (d : Byte) (rd wr mreq iorq : Bool) : Pins := ⟨a, d, rd, wr, mreq, iorq, false, false⟩

def quiet : Pins := pins 0 0 false false false false

/-- S0 in its run's last cycle, before the half-cycle that samples these pins. -/
def inRun (half : Half) (ps : List Pins) : State :=
  { s0 with fsm := .run 1 half .host, clk := half == .lo, env := { emptyEnv with pins := ps } }

/-- The same with the edge latches set. -/
def inRunAfter (rd wr : Bool) (half : Half) (ps : List Pins) : State :=
  { inRun half ps with prevRd := rd, prevWr := wr }

/-- A state with a responder in slot k and the replies it will give. -/
def withResponder (k : Kind) (h : Handle) (rs : List Reply) (s : State) : State :=
  { s with ht := withSlot s.ht k ⟨true, h⟩, env := { s.env with replies := rs } }

def answer (v : Byte) : Reply := ⟨v, none⟩

/-- What a function of the next state gives, if there is one. -/
def look {α : Type} (f : State → α) (o : Host.Outcome State Fault Refusal) : Option α :=
  match o with
  | .next t => some (f t)
  | .fault _ => none
  | .refused _ => none

/-! ## Well-formedness (R105) -/

theorem test_advance_count_too_large : (Instr.advance 4294967296).wellFormed = false := by decide
theorem test_advance_count_largest : (Instr.advance 4294967295).wellFormed = true := by decide

/-! ## Decoding: words written out from R111, R113, R115 (and the examples of R130, V1, V3, V5, V7) -/

theorem test_decode_init : decodeTableWord 40 0x0000000000 = some .init := by decide
theorem test_decode_advance : decodeTableWord 40 0x10FFFFFFFF = some (.advance 4294967295) := by decide
theorem test_decode_reset : decodeTableWord 40 0x2000000000 = some .reset := by decide
theorem test_decode_seth : decodeTableWord 40 0x3200000005 = some (.seth .iord 5) := by decide
theorem test_decode_clrh : decodeTableWord 40 0x4300000000 = some (.clrh .iowr) := by decide
theorem test_decode_setdbg : decodeTableWord 40 0x5000000009 = some (.setdbg 0b1001) := by decide
theorem test_decode_setsink : decodeTableWord 40 0x6000000009 = some (.setsink 9) := by decide
theorem test_decode_clrsink : decodeTableWord 40 0x7000000000 = some .clrsink := by decide
theorem test_decode_memRead : decodeTableWord 8 0b100010 = some (.memRead false false false) := by decide
theorem test_decode_ioRead : decodeTableWord 8 0b101001 = some (.ioRead true false) := by decide
theorem test_decode_rdNone : decodeTableWord 8 0b100100 = some (.rdNone false true) := by decide
theorem test_decode_rdHeld : decodeTableWord 8 0b110010 = some (.rdHeld false false true false) := by decide
theorem test_decode_memWrite : decodeTableWord 8 0b011010 = some (.memWrite true false) := by decide
theorem test_decode_ioWrite : decodeTableWord 8 0b001001 = some (.ioWrite false) := by decide
theorem test_decode_wrNone : decodeTableWord 8 0b011000 = some (.wrNone true) := by decide
theorem test_decode_wrHeld : decodeTableWord 8 0b001110 = some (.wrHeld false true false) := by decide
theorem test_decode_idle : decodeTableWord 8 0b010110 = some (.idle true true true false) := by decide

/-- V7.7 to V7.14: each reserved form of R120 is refused by the decoder. -/
theorem test_decode_reserved :
    [0x2000000001, 0x3400000001, 0x4300000001, 0x5000000010, 0x6100000001, 0x1100000001, 0x9000000000,
      0x8000000000].map (decodeTableWord 40) = List.replicate 8 none := by decide

/-- The bits a word may not have: a key is 6 bits, so a wider number is no key. -/
theorem test_decode_key_bounds : decodeTableWord 8 0x3F = some (.rdHeld true true true true) := by decide

/-- PINS30 (R101): A = 0x1234, D = 0x5A, RD and MREQ asserted. -/
theorem test_pins_word : pinsOfWord 0x055A1234 = pins 0x1234 0x5A true false true false := by decide

/-- SNAP40 (R100): the same sample in a reset run's HIGH half-cycle, bits 30 and 33 set. -/
theorem test_snap_word :
    wordOfSnap ⟨0x1234, 0x5A, true, false, true, false, false, false, true, false, false, true⟩
      = 0x02455A1234 := by decide

/-! ## Assembler (R130) -/

theorem test_assemble_clrh : (assemble "clrh memwr".toList).map encode = some (.command 0x4100000000) := by
  decide
theorem test_assemble_setsink_hex :
    (assemble "SETSINK 0x9".toList).map encode = some (.command 0x6000000009) := by decide
theorem test_assemble_setdbg_too_large : assemble "SETDBG 16".toList = none := by decide

/-! ## Host commands, one step each -/

/-- V5.1, R225: INIT's step leaves the sentinel, the reset line asserted and a run of 4 cycles. -/
theorem test_init : look (fun t => (t.fsm, t.cnt, t.rst, t.dout, t.hist))
    (step { State.reset with env := { emptyEnv with commands := [0x0000000000] } })
    = some (.run 4 .hi .reset, -1, true, 0x00, []) := by decide
/-- V5.5. -/
theorem test_init_again : look (fun t => (t.fsm, t.mark)) (step (issue 0x0000000000))
    = some (.stopped, .refused .reinit) := by decide
/-- V1.1. -/
theorem test_advance_zero : look (fun t => (t.fsm, t.cnt, t.clk)) (step (issue 0x1000000000))
    = some (.idle, 3, false) := by decide
/-- V1.7. -/
theorem test_advance_largest : look (fun t => (t.fsm, t.mark)) (step (issue 0x10FFFFFFFF))
    = some (.run 4294967295 .hi .host, .none) := by decide
/-- V5.2. -/
theorem test_reset : look (fun t => (t.fsm, t.rst, t.int, t.nmi, t.cnt))
    (step { issue 0x2000000000 with int := true, nmi := true, cnt := 7 })
    = some (.run 4 .hi .reset, true, false, false, 7) := by decide
/-- V7.5 for RESET. -/
theorem test_reset_before_init : look (fun t => (t.fsm, t.mark)) (step { issue 0x2000000000 with fsm := .off })
    = some (.stopped, .refused .notConstructed) := by decide
/-- V3.9. -/
theorem test_seth_handle_zero : look (fun t => (t.ht.memrd, t.ht.memwr)) (step (issue 0x3000000000))
    = some (⟨true, 0⟩, ⟨false, 0⟩) := by decide
/-- V3.5: last writer wins. -/
theorem test_seth_replaces : look (fun t => t.ht.memrd)
    (step (withResponder .memrd 1 [] (issue 0x3000000007))) = some ⟨true, 7⟩ := by decide
/-- V3.6. -/
theorem test_clrh : look (fun t => (t.ht.iowr, t.ht.iord))
    (step { withResponder .iord 5 [] (withResponder .iowr 3 [] s0) with
      env := { emptyEnv with commands := [0x4300000000] } }) = some (⟨false, 0⟩, ⟨true, 5⟩) := by decide
/-- V3.7. -/
theorem test_clrh_empty : look (fun t => (t.ht.memwr, t.mark)) (step (issue 0x4100000000))
    = some (⟨false, 0⟩, .none) := by decide
/-- V7.3. -/
theorem test_setdbg : look (fun t => (t.dbg, t.sink)) (step (issue 0x500000000A))
    = some (0b1010, ⟨false, 0⟩) := by decide
/-- R246's example. -/
theorem test_setsink : look (fun t => t.sink) (step (issue 0x6000000009)) = some ⟨true, 9⟩ := by decide
/-- R247: DBG keeps its value. -/
theorem test_clrsink : look (fun t => (t.sink, t.dbg))
    (step { issue 0x7000000000 with dbg := 0xF, sink := ⟨true, 5⟩ }) = some (⟨false, 0⟩, 0xF) := by decide
/-- V7.14: the encoding is checked before OFF. -/
theorem test_reserved_before_off : look (fun t => (t.fsm, t.mark)) (step { issue 0x8000000000 with fsm := .off })
    = some (.stopped, .refused .reservedEncoding) := by decide
/-- V7.17: no step in STOPPED. -/
theorem test_stopped : step (refuse .reinit (issue 0x1000000001)) = .refused (.stopped .reinit) := rfl

/-! ## The nine classes, one half-cycle each (V2, V3, V5, V6, V7) -/

/-- V2.1. -/
theorem test_memRead : look (fun t => (t.dout, t.dir, t.prevRd, t.hist, t.env.replies))
    (step (withResponder .memrd 1 [answer 0xC3, answer 1] (inRun .hi [pins 0x1234 0 true false true false])))
    = some (0xC3, .output, true, [⟨.memrd, .mem 0x1234, 0xC3, .handler 1, 3, .hi⟩], [answer 1]) := by decide
/-- V7.15: the responder issues SETH MEMRD, 2 during its call. -/
theorem test_memRead_reentry : look (fun t => (t.fsm, t.mark, t.ht.memrd, t.hist, t.prevRd))
    (step (withResponder .memrd 1 [⟨0xC3, some 0x3000000002⟩] (inRun .hi [pins 0x1234 0 true false true false])))
    = some (.stopped, .refused .busy, ⟨true, 1⟩, [], false) := by decide
/-- V2.2: the port is the low byte. -/
theorem test_ioRead : look (fun t => (t.dout, t.dir, t.hist))
    (step (withResponder .iord 5 [answer 0x7F] (inRun .hi [pins 0xAB10 0 true false false true])))
    = some (0x7F, .output, [⟨.iord, .port 0x10, 0x7F, .handler 5, 3, .hi⟩]) := by decide
/-- P3: no IORD responder, the default 0x00. -/
theorem test_ioRead_default : look (fun t => (t.dout, t.hist))
    (step { inRun .hi [pins 0x34FE 0 true false false true] with dout := 0x55 })
    = some (0x00, [⟨.iord, .port 0xFE, 0x00, .byDefault, 3, .hi⟩]) := by decide
/-- V2.3: stale data is driven. -/
theorem test_rdNone : look (fun t => (t.dout, dataDrive t, t.prevRd, t.hist))
    (step { inRun .hi [pins 0 0 true false false false] with dout := 0x55 })
    = some (0x55, some 0x55, true, []) := by decide
/-- V2.4. -/
theorem test_rdHeld : look (fun t => (t.dir, t.prevRd, t.hist, t.snap.d, t.env.replies))
    (step { withResponder .memrd 1 [answer 1] (inRunAfter true false .hi [pins 0x5678 0x11 true false true false]) with
      dout := 0xC3, dir := .output })
    = some (.output, true, [], 0xC3, [answer 1]) := by decide
/-- V2.5: the data written is the CPU's, read after DIR <- IN (R172). -/
theorem test_memWrite : look (fun t => (t.dout, t.dir, t.prevWr, t.hist))
    (step { withResponder .memwr 2 [answer 0] (inRun .lo [pins 0x8000 0x5A false true true false]) with
      dir := .output, dout := 0x77 })
    = some (0x77, .input, true, [⟨.memwr, .mem 0x8000, 0x5A, .handler 2, 3, .lo⟩]) := by decide
/-- V3.4. -/
theorem test_ioWrite : look (fun t => (t.dir, t.prevWr, t.hist, t.env.replies))
    (step (inRun .hi [pins 0x12FE 0x99 false true false true]))
    = some (.input, true, [⟨.iowr, .port 0xFE, 0x99, .byDefault, 3, .hi⟩], []) := by decide
/-- V2.7. -/
theorem test_wrNone : look (fun t => (t.dir, t.prevWr, t.hist, t.snap.d))
    (step (inRun .hi [pins 0 0x11 false true false false])) = some (.input, true, [], 0x11) := by decide
/-- V2.8. -/
theorem test_wrHeld : look (fun t => (t.dir, t.prevRd, t.prevWr, t.hist))
    (step (inRunAfter false true .hi [pins 0x8000 0 false true true false]))
    = some (.input, false, true, []) := by decide
/-- The row 0xA of the table of 95_test_vectors.md 2.6: four lines, CNT after the increment. -/
theorem test_wrHeld_verbose : look (fun t => (t.fsm, t.trace.map (·.1),
      match t.trace with
      | (_, .summary c _) :: _ => some c
      | _ => none))
    (step { inRunAfter false true .lo [pins 0x8000 0 false true false true] with sink := ⟨true, 9⟩, dbg := 0xA })
    = some (.idle, [9, 9, 9, 9], some 4) := by decide
/-- V2.9 with MREQ and RFSH asserted. -/
theorem test_idle : look (fun t => (t.dir, t.prevRd, t.prevWr, t.hist, t.snap.rfsh))
    (step (inRunAfter true true .hi [⟨0, 0, false, false, true, false, false, true⟩]))
    = some (.input, false, false, [], true) := by decide
/-- V1.6: the end of cycle 2. -/
theorem test_idle_overflow : look (fun t => (t.fsm, t.mark, t.cnt, t.clk))
    (step { inRun .lo [quiet] with cnt := 2147483647 })
    = some (.stopped, .fault .cntOverflow, 2147483647, false) := by decide

/-! ## Witnesses: states and operands that meet the hypotheses of the statements -/

theorem noReentry_of_nil {s : State} (h : s.env.replies = []) : NoReentry s := by
  intro r hr; rw [h] at hr; exact absurd hr List.not_mem_nil

theorem witness_DecodeOfEncode : (Instr.advance 4294967295).wellFormed = true := by decide

theorem witness_EncodeOfDecode : decode (.command 0x10FFFFFFFF) = .instr (.advance 4294967295) ∧
    decode (.key 0x3F) = .instr (.rdHeld true true true true) := by decide

/-- A word for each clause of R120 at its boundary, one of them at the head of the queue in OFF. -/
theorem witness_ReservedEncodings :
    (∃ y, decodeCommand 0x8000000000 = .reserved y) ∧ (∃ y, decodeCommand 0x4400000000 = .reserved y) ∧
    (∃ y, decodeCommand 0x7100000000 = .reserved y) ∧ (∃ y, decodeCommand 0x0000000001 = .reserved y) ∧
    (∃ y, decodeCommand 0x5000000010 = .reserved y) ∧
    (∃ y, (issue 0x8000000000).fsm = .idle ∧ (issue 0x8000000000).env.commands = 0x8000000000 :: [] ∧
      decodeCommand 0x8000000000 = .reserved y) :=
  ⟨⟨_, rfl⟩, ⟨_, rfl⟩, ⟨_, rfl⟩, ⟨_, rfl⟩, ⟨_, rfl⟩, ⟨_, rfl, rfl, rfl⟩⟩

theorem witness_PinWordLayout : zeroSnap.a = zeroPins.a ∧ zeroSnap.d = zeroPins.d ∧ zeroSnap.rd = zeroPins.rd ∧
    zeroSnap.wr = zeroPins.wr ∧ zeroSnap.mreq = zeroPins.mreq ∧ zeroSnap.iorq = zeroPins.iorq ∧
    zeroSnap.m1 = zeroPins.m1 ∧ zeroSnap.rfsh = zeroPins.rfsh := by decide

theorem witness_StepRunsTheHostsCommand : (issue 0x1000000003).fsm = .idle ∧
    (issue 0x1000000003).env.commands = 0x1000000003 :: [] ∧
    decodeCommand 0x1000000003 = .instr (.advance 3) := by decide

theorem witness_StepRunsTheHalfCyclesClass : (inRun .hi [quiet]).fsm = .run 1 .hi .host ∧
    (inRun .hi [quiet]).env.pins = quiet :: [] := by decide

theorem witness_UnlistedPinsAreFree : (inRun .lo []).fsm = .run 1 .lo .host ∧ (inRun .lo []).env.pins = [] := by
  decide

theorem witness_StoppedEnablesNoStep : (refuse .busy s0).fsm = .stopped := rfl

theorem witness_IdleWithoutCommand : s0.fsm = .idle ∧ s0.env.commands = [] := by decide

/-- Each premise of the command statements on FSM, with the counts 0 and 2^32 - 1. -/
theorem witness_CommandStatements : s0.fsm = .idle ∧ State.reset.fsm = .off ∧
    (inRun .hi []).fsm = .run 1 .hi .host ∧ (refuse .busy s0).fsm = .stopped ∧
    (0 : Nat) = 0 ∧ (4294967295 : Nat) ≠ 0 := by decide

/-- SETH and CLRH: the selector 4, the operand 1, and two different slots. -/
theorem witness_SethClrhEncodings : 4 ≤ (4 : BitVec 4).toNat ∧ (1 : BitVec 32) ≠ 0 ∧ Kind.iowr ≠ Kind.memrd := by
  decide

/-- SETDBG, SETSINK and CLRSINK: the selector 1 and the operand 16. -/
theorem witness_DebugEncodings : (1 : BitVec 4) ≠ 0 ∧ 16 ≤ (16 : BitVec 32).toNat ∧ (1 : BitVec 32) ≠ 0 := by
  decide

theorem witness_RefusedCommands : (Instr.advance 1).isCommand = true ∧ Instr.advance 1 ≠ .init ∧
    Instr.init.isCommand = true ∧ State.reset.fsm = .off ∧ s0.fsm = .idle ∧
    (inRun .hi []).fsm = .run 1 .hi .host := by decide

/-- A sampled half-cycle with these latches and pins meets `HalfCycleRuns` for its own key. -/
theorem runs_of (rd wr : Bool) (half : Half) (p : Pins) :
    HalfCycleRuns 1 half .host (keyOf p.rd rd p.wr wr p.mreq p.iorq) (openHalf half (inRunAfter rd wr half [p])) where
  fsm := rfl
  key := rfl
  noReentry := fun _ h => nomatch h
  room := fun _ => by change (3 : Int) < (2 ^ 31 : Nat) - 1; decide

theorem witness_MemRead : ∃ s, HalfCycleRuns 1 .lo .host (keyOf true false true true true true) s :=
  ⟨_, runs_of false true .lo (pins 0xFFFF 0 true true true true)⟩
theorem witness_IoRead : ∃ s, HalfCycleRuns 1 .hi .host (keyOf true false true true false true) s :=
  ⟨_, runs_of false true .hi (pins 0xAB10 0 true true false true)⟩
theorem witness_RdNone : ∃ s, HalfCycleRuns 1 .hi .host (keyOf true false false false false false) s :=
  ⟨_, runs_of false false .hi (pins 0 0 true false false false)⟩
theorem witness_RdHeld : ∃ s, HalfCycleRuns 1 .lo .host (keyOf true true false false true false) s :=
  ⟨_, runs_of true false .lo (pins 0x5678 0 true false true false)⟩
theorem witness_MemWrite : ∃ s, HalfCycleRuns 1 .lo .host (keyOf false true true false true true) s :=
  ⟨_, runs_of true false .lo (pins 0x8000 0x5A false true true true)⟩
theorem witness_IoWrite : ∃ s, HalfCycleRuns 1 .hi .host (keyOf false false true false false true) s :=
  ⟨_, runs_of false false .hi (pins 0x12FE 0x99 false true false true)⟩
theorem witness_WrNone : ∃ s, HalfCycleRuns 1 .hi .host (keyOf false false true false false false) s :=
  ⟨_, runs_of false false .hi (pins 0 0x11 false true false false)⟩
theorem witness_WrHeld : ∃ s, HalfCycleRuns 1 .hi .host (keyOf false false true true true false) s :=
  ⟨_, runs_of false true .hi (pins 0x8000 0 false true true false)⟩
theorem witness_NoStrobe : ∃ s, HalfCycleRuns 1 .hi .host (keyOf false true false true true false) s :=
  ⟨_, runs_of true true .hi (pins 0 0 false false true false)⟩

theorem witness_TheClassSelectsTheSlot : (inRun .hi []).fsm = .run 1 .hi .host ∧ NoReentry (inRun .hi []) :=
  ⟨rfl, fun _ h => nomatch h⟩

theorem witness_CounterOverflow : ∃ s : State, s.fsm = .run 1 .lo .host ∧ NoReentry s ∧ s.cnt = s.params.cntMax :=
  ⟨{ inRun .lo [] with cnt := 2147483647 }, rfl, noReentry_of_nil rfl, by decide⟩

theorem witness_HalfCycleOnlyInRun : (Instr.rdNone false false).isCommand = false ∧
    ∀ rem half cont, s0.fsm ≠ .run rem half cont :=
  ⟨rfl, fun _ _ _ h => nomatch h⟩

/-- A read of an installed responder that issues ADVANCE 1, one that issues INIT, one a reserved word. -/
theorem witness_ReentryDuringACall (w : CmdWord) (s : State)
    (hs : s = openHalf .hi (withResponder .memrd 1 [⟨0xC3, some w⟩] (inRun .hi [pins 0x1234 0 true false true false]))) :
    s.fsm = .run 1 .hi .host ∧ (∃ r, recordOf .hi s = [r] ∧ r.served = .handler 1) ∧
      s.env.replies = [⟨0xC3, some w⟩] := by
  subst hs; exact ⟨rfl, ⟨_, rfl, rfl⟩, rfl⟩

/-- The same for the call of a MEM_WRITE. -/
theorem witness_ReentryDuringAWriteCall (w : CmdWord) (s : State)
    (hs : s = openHalf .lo (withResponder .memwr 2 [⟨0, some w⟩] (inRun .lo [pins 0x8000 0x5A false true true false]))) :
    s.fsm = .run 1 .lo .host ∧ (∃ r, recordOf .lo s = [r] ∧ r.served = .handler 2) ∧
      s.env.replies = [⟨0, some w⟩] := by
  subst hs; exact ⟨rfl, ⟨_, rfl, rfl⟩, rfl⟩

/-- The state in which the lines of the cycle that `s` ends are emitted. -/
def emittingState (s : State) : State :=
  { s with
    dir := if s.snap.rd then .output else .input
    prevRd := s.snap.rd
    prevWr := s.snap.wr
    dout := dataAfter s
    hist := s.hist ++ recordOf .lo s
    snap := snapAfter s
    cnt := s.cnt + 1 }

/-- A sink that issues INIT during the call for the first line of a cycle with no responder call. -/
theorem witness_ReentryOfTheSink : ∃ s : State, s.fsm = .run 1 .lo .host ∧ s.cnt < s.params.cntMax ∧
    s.env.replies = [] ++ [⟨0, some 0⟩] ∧ responderCalls .lo s ≤ 0 ∧
    0 < responderCalls .lo s + (linesAtEnd s.rst (emittingState s)).length :=
  ⟨{ inRun .lo [] with sink := ⟨true, 9⟩, dbg := 1, env := { emptyEnv with replies := [⟨0, some 0⟩] } },
    rfl, by decide, rfl, by decide, by decide⟩

/-- A sink that issues ADVANCE 1 during the call for the fourth line of a VERBOSE cycle, after a MEMRD call that
returned. -/
theorem witness_ReentryOfTheSinkAfterACall : ∃ s : State, s.fsm = .run 1 .lo .host ∧ s.cnt < s.params.cntMax ∧
    s.env.replies = [answer 0xC3, answer 0, answer 0, answer 0] ++ [⟨0, some 0x1000000001⟩] ∧
    (∀ r ∈ [answer 0xC3, answer 0, answer 0, answer 0], r.command = none) ∧ responderCalls .lo s = 1 ∧
    4 < responderCalls .lo s + (linesAtEnd s.rst (emittingState s)).length :=
  ⟨openHalf .lo { withResponder .memrd 1
      [answer 0xC3, answer 0, answer 0, answer 0, ⟨0, some 0x1000000001⟩]
      (inRun .lo [pins 0x1234 0 true false true false]) with sink := ⟨true, 9⟩, dbg := 0x9 },
    rfl, by decide, rfl, by decide, by decide, by decide⟩

theorem witness_ReentryRefusal : (inRun .hi []).fsm = .run 1 .hi .host ∧
    decodeCommand 0x3000000002 = .instr (.seth .memrd 2) := by decide

/-- A half-cycle of a run that completes: the premises of the rules over steps of a run. -/
theorem witness_StepsOfARun : ∃ s t : State, s.fsm = .run 1 .hi .host ∧ step s = .next t ∧
    ∀ why, t.mark ≠ .refused why :=
  ⟨inRun .hi [pins 0x1234 0 true false true false], _, rfl, rfl, fun _ h => nomatch h⟩

theorem witness_StepsOfACore : ∃ t : State, step (issue 0x1000000002) = .next t ∧ (issue 0x1000000002).fsm ≠ .off :=
  ⟨_, rfl, by decide⟩

theorem witness_Invariant : ∃ s t : State, Inv s ∧ step s = .next t ∧ s.fsm = .run 1 .lo .host := by
  refine ⟨inRun .lo [quiet], _, ⟨?_, ?_, fun _ _ => ?_⟩, rfl, rfl⟩
  · unfold Params.valid; decide
  · exact ⟨rfl, by decide, by decide, rfl, rfl⟩
  · exact
      { int := rfl, nmi := rfl, cntLow := by decide, cntHigh := by decide, dir := rfl
        memrd := fun _ => rfl, memwr := fun _ => rfl, iord := fun _ => rfl, iowr := fun _ => rfl
        sink := fun _ => rfl, hist := fun _ h => nomatch h }

/-- Two addresses with one port, for an I/O read and an I/O write. -/
theorem witness_PortIgnores : ∃ s t t' : State, s.fsm = .run 1 .hi .host ∧
    s.snap.a.extractLsb' 0 8 = (0x00FE : Addr).extractLsb' 0 8 ∧ exec (.ioRead false false) s = .next t ∧
    exec (.ioRead false false) { s with snap := { s.snap with a := 0x00FE } } = .next t' :=
  ⟨openHalf .hi (inRun .hi [pins 0x12FE 0 true false false true]), _, _, rfl, by decide, rfl, rfl⟩

/-- A run of two half-cycles with no read responder. -/
theorem witness_NoReadResponder : ∃ s t : State, s.dout = 0x00 ∧ s.ht.memrd.inst = false ∧ s.ht.iord.inst = false ∧
    runSteps 1 s = .next t ∧ t.ht.memrd.inst = false ∧ t.ht.iord.inst = false :=
  ⟨inRun .hi [pins 0x1234 0 true false true false], _, rfl, rfl, rfl, rfl, rfl, rfl⟩

/-- A half-cycle of a run with this sink and mask meets the premises of the emission filter. -/
def emitting (half : Half) (inst : Bool) (m : DbgMask) : State :=
  { inRun half [] with sink := ⟨inst, 9⟩, dbg := m }

/-- The four clauses of the emission filter: a HIGH half, no sink, no hit, a hit with VERBOSE. -/
theorem witness_EmissionFilter :
    ([(Half.hi, true, 0x9), (.lo, false, 0xF), (.lo, true, 0x8), (.lo, true, 0x9)].map fun (h, i, m) =>
      look (fun t => t.trace.length) (exec (decodeKey (class6 (emitting h i m))) (emitting h i m)))
      = [some 0, some 0, some 0, some 4] ∧
    (emitting .lo true 0x9).fsm = .run 1 .lo .host ∧ NoReentry (emitting .lo true 0x9) ∧
    (emitting .lo true 0x9).cnt < (emitting .lo true 0x9).params.cntMax :=
  ⟨by decide, rfl, noReentry_of_nil rfl, by decide⟩

/-- The masks of those clauses: 0x8 does not hit, 0x9 hits with VERBOSE. -/
theorem witness_EmissionMasks :
    emitHit 0x8 zeroSnap = false ∧ emitHit 0x9 zeroSnap = true ∧ dbgVerbose 0x9 = true := by decide

theorem witness_IoTrace : ∃ (s : State) (p1 p2 p3 p4 : Pins), s.fsm = .run 2 .hi .host ∧ NoReentry s ∧
    s.cnt + 2 ≤ s.params.cntMax ∧ s.sink.inst = true ∧ s.dbg = 0b0010 ∧ s.env.pins = p1 :: p2 :: p3 :: p4 :: [] ∧
    p2.iorq = true ∧ p4.iorq = false :=
  ⟨{ inRun .hi [quiet, pins 0 0 false false false true, quiet, quiet] with
      fsm := .run 2 .hi .host, sink := ⟨true, 9⟩, dbg := 0b0010 },
    _, _, _, _, rfl, noReentry_of_nil rfl, by decide, rfl, rfl, rfl, rfl, rfl⟩

theorem witness_RunOfNCycles : (inRun .hi []).fsm = .run 1 .hi .host ∧ NoReentry (inRun .hi []) ∧
    (inRun .hi []).cnt + 1 ≤ (inRun .hi []).params.cntMax :=
  ⟨rfl, noReentry_of_nil rfl, by decide⟩

/-- ADVANCE's counts at both ends that the default counter has room for. -/
theorem witness_AdvanceCounts : 2147483644 ≤ Config.advMax ∧ s0.fsm = .idle ∧
    (issue 0x107FFFFFFC).env.commands = cmdWord 0x1 0 (BitVec.ofNat 32 2147483644) :: [] ∧
    (issue 0x107FFFFFFC).cnt + 2147483644 ≤ (issue 0x107FFFFFFC).params.cntMax ∧
    (issue 0x1000000000).env.commands = cmdWord 0x1 0 (BitVec.ofNat 32 0) :: [] := by decide

theorem witness_ResetCompletes : (issue 0x2000000000).params.valid ∧ (issue 0x2000000000).fsm = .idle ∧
    NoReentry (issue 0x2000000000) ∧ (issue 0x2000000000).env.commands = 0x2000000000#40 :: [] ∧
    (issue 0x2000000000).cnt + (issue 0x2000000000).params.resetCycles ≤ (issue 0x2000000000).params.cntMax :=
  ⟨by unfold Params.valid; decide, rfl, noReentry_of_nil rfl, rfl, by decide⟩

/-- INIT with the narrowest counter that has room for the reset run (CNT_W = 3, CNT_MAX = 3). -/
theorem witness_InitCompletes : ∃ s : State, s.params.valid ∧ s.fsm = .off ∧
    s.env.commands = 0x0000000000#40 :: [] ∧ (s.params.resetCycles : Int) - 1 ≤ s.params.cntMax :=
  ⟨{ State.reset with params := ⟨4, 3⟩, env := { emptyEnv with commands := [0] } },
    by unfold Params.valid; decide, rfl, rfl, by decide⟩

theorem witness_HeldReadStrobe : ∃ s t : State, s.fsm ≠ .off ∧ s.prevRd = true ∧ 1 ≤ s.env.pins.length ∧
    (∀ p ∈ s.env.pins.take 1, p.rd = true) ∧ runSteps 1 s = .next t :=
  ⟨inRunAfter true false .hi [pins 0x0100 0 true false true false], _, by decide, rfl, by decide,
    by decide, rfl⟩

theorem witness_HeldWriteStrobe : ∃ s t : State, s.fsm ≠ .off ∧ s.prevWr = true ∧ 1 ≤ s.env.pins.length ∧
    (∀ p ∈ s.env.pins.take 1, p.rd = false ∧ p.wr = true) ∧ runSteps 1 s = .next t :=
  ⟨inRunAfter false true .hi [pins 0x8000 0x5A false true true false], _, by decide, rfl, by decide,
    by decide, rfl⟩

/-- V2.10: two dispatches in one cycle, a read and a write. -/
theorem witness_CycleDispatches : ∃ (s t : State) (p q : Pins), s.fsm = .run 1 .hi .host ∧
    s.env.pins = p :: q :: [] ∧ runSteps 2 s = .next t ∧ t.hist.length = 2 ∧
    p.rd = true ∧ p.wr = false ∧ q.rd = false ∧ q.wr = true :=
  ⟨inRun .hi [pins 0x0010 0 true false true false, pins 0x0011 0x22 false true true false],
    _, _, _, rfl, rfl, rfl, rfl, rfl, rfl, rfl, rfl⟩

/-- V2.11, in the last cycle of its run. -/
theorem witness_WriteHiddenByARead : ∃ (s t : State) (p q : Pins), s.fsm = .run 1 .hi .host ∧
    s.env.pins = p :: q :: [] ∧ p.rd = true ∧ p.wr = true ∧ q.rd = false ∧ q.wr = true ∧
    runSteps 2 s = .next t :=
  ⟨inRun .hi [pins 0x0010 0x22 true true true false, pins 0x0010 0x22 false true true false],
    _, _, _, rfl, rfl, rfl, rfl, rfl, rfl, rfl⟩

/-- V2.13 in the last cycle of its run, the read and the write; and the read across two cycles. -/
theorem witness_LateRequest : ∃ (s t : State) (p q : Pins) (s' t' : State) (p' q' : Pins) (s'' t'' : State),
    (s.fsm = .run 1 .hi .host ∧ s.env.pins = p :: q :: [] ∧ p.mreq = false ∧ p.iorq = false ∧
      p.rd = true ∧ q.rd = true ∧ runSteps 2 s = .next t) ∧
    (s'.fsm = .run 1 .hi .host ∧ s'.env.pins = p' :: q' :: [] ∧ p'.mreq = false ∧ p'.iorq = false ∧
      p'.rd = false ∧ q'.rd = false ∧ p'.wr = true ∧ q'.wr = true ∧ runSteps 2 s' = .next t') ∧
    (s''.fsm = .run 2 .lo .host ∧ s''.env.pins = p :: q :: [] ∧ runSteps 2 s'' = .next t'') :=
  ⟨inRun .hi [pins 0x0010 0 true false false false, pins 0x0010 0 true false true false], _, _, _,
    inRun .hi [pins 0x0010 0 false true false false, pins 0x0010 0 false true true false], _, _, _,
    { inRun .lo [pins 0x0010 0 true false false false, pins 0x0010 0 true false true false] with
      fsm := .run 2 .lo .host }, _,
    ⟨rfl, rfl, rfl, rfl, rfl, rfl, rfl⟩, ⟨rfl, rfl, rfl, rfl, rfl, rfl, rfl, rfl, rfl⟩, ⟨rfl, rfl, rfl⟩⟩

theorem witness_SeveralCores : ∃ cores, stepOne 1 [s0, issue 0x1000000001] = some (.next cores) := ⟨_, rfl⟩

end Sys2Proof.Tests
end

section
/-! The step between runs (00_scope.md R14). -/

namespace Sys2Proof.Machine

/-- Popping a queue whose oldest word is `w` leaves the words behind it (log entry 1). -/
theorem popCommand_of_cons {s : State} {w : CmdWord} {ws : List CmdWord} (hc : s.env.commands = w :: ws) :
    popCommand s = { s with env := { s.env with commands := ws } } := by
  simp [popCommand, hc]

/-- Settles O9: between runs a step executes the decoded instruction in the state with the queue popped
(`step_command`), and that state is the one with the rest of the queue. -/
theorem stepRunsTheHostsCommand : Obligations.StepRunsTheHostsCommand := by
  intro s w ws i hfsm hc hd
  rw [← popCommand_of_cons hc]
  exact step_command hfsm hc hd

end Sys2Proof.Machine
end

section
/-! What one step can do, a host command or a half-cycle (00_scope.md R14), said once; the invariant and the
rules over whole steps are proved from it. -/

namespace Sys2Proof.Machine

/-! The decoders. -/

/-- What the command decoder accepts is well formed: ADVANCE's count is a 32-bit field (R105, R111). -/
theorem wellFormed_of_decode {w : CmdWord} {i : Instr} (h : decodeCommand w = .instr i) :
    i.wellFormed = true := by
  rw [← cmdWord_fields w, decodeCommand_cmdWord] at h
  split_ifs at h <;> cases h
  · rfl
  · exact decide_eq_true (Nat.le_of_lt_succ (cmdArg w).isLt)
  all_goals rfl

/-- The class of the sampled key is the one the branches of R175 pick. -/
theorem decodeKey_class6 (s : State) : decodeKey (class6 s) = classify s.snap s.prevRd s.prevWr := by
  unfold class6 classify
  generalize s.snap.rd = rd, s.prevRd = prevRd, s.snap.wr = wr, s.prevWr = prevWr,
    s.snap.mreq = mreq, s.snap.iorq = iorq
  revert rd prevRd wr prevWr mreq iorq
  decide

/-! Meanings of the host commands, all of them at once. -/

/-- What a command does to the core where it is accepted (R140, R200, R201, R220, R225, R245 to R247); a
class is no command and is given no effect here. -/
def acceptedEffect (i : Instr) (s : State) : State :=
  match i with
  | .init => startReset (idleStep s)
  | .advance n => if n = 0 then s else setFsm (.run n .hi .host) s
  | .reset => startReset s
  | .seth k h => { s with ht := withSlot s.ht k { inst := true, handle := h } }
  | .clrh k => { s with ht := withSlot s.ht k emptySlot }
  | .setdbg m => { s with dbg := m }
  | .setsink h => { s with sink := { inst := true, handle := h } }
  | .clrsink => { s with sink := emptySlot }
  | .memRead _ _ _ | .ioRead _ _ | .rdNone _ _ | .rdHeld _ _ _ _ | .memWrite _ _ | .ioWrite _
  | .wrNone _ | .wrHeld _ _ _ | .idle _ _ _ _ => s

/-- A command's meaning is its effect behind its acceptance: INIT in OFF, every other in IDLE (R264). -/
theorem exec_command {i : Instr} (hi : i.isCommand = true) (s : State) :
    exec i s = if i = .init then acceptOff (acceptedEffect i) s else acceptIdle (acceptedEffect i) s := by
  cases i
  case init | advance | reset | seth | clrh | setdbg | setsink | clrsink => rfl
  all_goals cases hi

/-- In STOPPED every meaning is the step that is not enabled (R33). -/
theorem exec_stopped {s : State} (h : s.fsm = .stopped) (i : Instr) : exec i s = noStep s := by
  cases hi : i.isCommand with
  | true =>
    rw [exec_command hi]
    split
    · exact acceptOff_stopped h _
    · exact acceptIdle_stopped h _
  | false =>
    cases i
    case init | advance | reset | seth | clrh | setdbg | setsink | clrsink => cases hi
    all_goals
      simp only [exec, execMemRead, execIoRead, execRdNone, execRdHeld, execMemWrite, execIoWrite,
        execWrNone, execWrHeld, execIdle, halfCycle_stopped h]

/-- What a host command other than INIT leaves when IDLE accepts it. -/
inductive CommandDone (s : State) : State → Prop where
  | nothing : CommandDone s s
  | advance (n : Nat) (pos : n ≠ 0) (max : n ≤ Config.advMax) : CommandDone s (setFsm (.run n .hi .host) s)
  | reset : CommandDone s (startReset s)
  | handler (k : Kind) (v : Slot) (canonical : SlotCanonical v) :
      CommandDone s { s with ht := withSlot s.ht k v }
  | debug (m : DbgMask) : CommandDone s { s with dbg := m }
  | sink (v : Slot) (canonical : SlotCanonical v) : CommandDone s { s with sink := v }

theorem slotCanonical_installed (h : Handle) : SlotCanonical ⟨true, h⟩ := nofun

theorem slotCanonical_empty : SlotCanonical emptySlot := fun _ => rfl

/-- The effect of every well-formed command but INIT. -/
theorem acceptedEffect_done {i : Instr} (hi : i.isCommand = true) (hw : i.wellFormed = true) (h0 : i ≠ .init)
    (s : State) : CommandDone s (acceptedEffect i s) := by
  cases i
  case init => exact absurd rfl h0
  case advance n =>
    by_cases hn : n = 0
    · subst hn; exact .nothing
    · have heffect : acceptedEffect (.advance n) s = setFsm (.run n .hi .host) s := if_neg hn
      exact heffect ▸ .advance n hn (of_decide_eq_true hw)
  case reset => exact .reset
  case seth k h => exact .handler k _ (slotCanonical_installed h)
  case clrh k => exact .handler k _ slotCanonical_empty
  case setdbg m => exact .debug m
  case setsink h => exact .sink _ (slotCanonical_installed h)
  case clrsink => exact .sink _ slotCanonical_empty
  all_goals cases hi

/-- Everything a well-formed command can do in IDLE (R264): INIT is refused, every other is accepted. -/
theorem exec_idle_cases {i : Instr} (hi : i.isCommand = true) (hw : i.wellFormed = true) {s t : State}
    (h : s.fsm = .idle) (ht : exec i s = .next t) : t = refuse .reinit s ∨ CommandDone s t := by
  rw [exec_command hi] at ht
  split at ht
  · rw [acceptOff_idle h] at ht
    cases ht
    exact .inl rfl
  next h0 =>
    rw [acceptIdle_idle h] at ht
    cases ht
    exact .inr (acceptedEffect_done hi hw h0 s)

/-! One step, whatever FSM holds. -/

/-- Everything one step can do, from `s` to the next state. -/
inductive StepDone (s : State) : State → Prop where
  | waits (between : s.fsm = .off ∨ s.fsm = .idle) : StepDone s s
  | refuses (why : Reason) (between : s.fsm = .off ∨ s.fsm = .idle) : StepDone s (refuse why (popCommand s))
  | constructs (off : s.fsm = .off) : StepDone s (startReset (idleStep (popCommand s)))
  | commands (idle : s.fsm = .idle) {t : State} (done : CommandDone (popCommand s) t) : StepDone s t
  | completes (rem : Nat) (half : Half) (cont : Cont) (run : s.fsm = .run rem half cont) {t : State}
      (done : HalfCycleDone rem half cont (openHalf half s) t) : StepDone s t
  | stops (rem : Nat) (half : Half) (cont : Cont) (run : s.fsm = .run rem half cont) {t : State}
      (stopped : HalfCycleStops half (openHalf half s) t) : StepDone s t

/-- The step of a run (R142): the half-cycle completes or stops the core. -/
theorem step_run_cases {s t : State} {rem : Nat} {half : Half} {cont : Cont}
    (h : s.fsm = .run rem half cont) (hs : step s = .next t) :
    HalfCycleDone rem half cont (openHalf half s) t ∨ HalfCycleStops half (openHalf half s) t := by
  obtain ⟨t', hexec, hcases⟩ := halfCycle_cases (u := openHalf half s) h
  rw [step_run h, decodeKey_class6, hexec] at hs
  cases hs
  exact hcases

/-- The step between runs (R110): by the host's oldest word, if there is one. -/
theorem step_between_cases {s t : State} (h : s.fsm = .off ∨ s.fsm = .idle) (hs : step s = .next t) :
    StepDone s t := by
  cases hc : s.env.commands with
  | nil =>
    cases (step_waiting h hc).symm.trans hs
    exact .waits h
  | cons w ws =>
    cases hd : decodeCommand w with
    | reserved why =>
      cases (step_reserved h hc hd).symm.trans hs
      exact .refuses _ h
    | instr i =>
      rw [step_command h hc hd] at hs
      have hi := isCommand_of_decode hd
      rcases h with off | idle
      · cases (exec_off hi (s := popCommand s) off).symm.trans hs
        by_cases h0 : i = .init
        · rw [if_pos h0]; exact .constructs off
        · rw [if_neg h0]; exact .refuses _ (.inl off)
      · rcases exec_idle_cases hi (wellFormed_of_decode hd) (s := popCommand s) idle hs with rfl | done
        · exact .refuses _ (.inr idle)
        · exact .commands idle done

/-- `StepDone` is an inversion of the step: there is no other next state. -/
theorem step_cases {s t : State} (hs : step s = .next t) : StepDone s t := by
  cases h : s.fsm with
  | off => exact step_between_cases (.inl h) hs
  | idle => exact step_between_cases (.inr h) hs
  | stopped => exact absurd ((step_stopped h).symm.trans hs) (noStep_ne_next s t)
  | run rem half cont =>
    rcases step_run_cases h hs with done | stopped
    · exact .completes _ _ _ h done
    · exact .stops _ _ _ h stopped

end Sys2Proof.Machine
end

section
/-! The invariant of the machine (`Inv`): at power-on, and under every step. -/

namespace Sys2Proof.Machine

/-! `FsmInv`, read in each state of FSM. -/

theorem fsmInv_off {s : State} (h : s.fsm = .off) : FsmInv s ↔ s.mark = .none := by
  simp [FsmInv, h]

theorem fsmInv_idle {s : State} (h : s.fsm = .idle) :
    FsmInv s ↔ s.mark = .none ∧ s.clk = false ∧ s.rst = false := by
  simp [FsmInv, h]

theorem fsmInv_run {s : State} {rem : Nat} {half : Half} {cont : Cont} (h : s.fsm = .run rem half cont) :
    FsmInv s ↔ s.mark = .none ∧ 1 ≤ rem ∧ rem ≤ Config.advMax ∧ s.clk = (half == .lo) ∧
      s.rst = (cont == .reset) := by
  simp [FsmInv, h]

theorem fsmInv_stopped {s : State} (h : s.fsm = .stopped) : FsmInv s ↔ s.mark ≠ .none := by
  simp [FsmInv, h]

/-! Where `Inv` comes from and what it gives. -/

theorem Inv.of_stopped {s : State} (params : s.params.valid) (fsm : s.fsm = .stopped)
    (mark : s.mark ≠ .none) : Inv s :=
  { params := params, fsm := (fsmInv_stopped fsm).2 mark, live := fun _ running => absurd fsm running }

theorem Inv.of_live {s : State} (params : s.params.valid) (fsm : FsmInv s) (live : LiveInv s) : Inv s :=
  { params := params, fsm := fsm, live := fun _ _ => live }

theorem Inv.live_idle {s : State} (inv : Inv s) (h : s.fsm = .idle) : LiveInv s :=
  inv.live (by simp [h]) (by simp [h])

theorem Inv.live_run {s : State} (inv : Inv s) {rem : Nat} {half : Half} {cont : Cont}
    (h : s.fsm = .run rem half cont) : LiveInv s :=
  inv.live (by simp [h]) (by simp [h])

theorem Inv.popCommand {s : State} (inv : Inv s) : Inv (popCommand s) :=
  { params := inv.params, fsm := inv.fsm, live := fun off stopped => { inv.live off stopped with } }

/-! The construction (R43, R225, R226). -/

/-- CNT_MAX is at least 0, so the sentinel -1 is within every counter's width (R8, R43). -/
theorem cntInit_le_cntMax (p : Params) : Config.cntInit ≤ p.cntMax := by
  have hpow : 0 < 2 ^ (p.cntWidth - 1) := Nat.two_pow_pos _
  unfold Params.cntMax Config.cntInit
  omega

theorem liveInv_idleStep (s : State) : LiveInv (idleStep s) where
  int := rfl
  nmi := rfl
  cntLow := le_rfl
  cntHigh := cntInit_le_cntMax s.params
  dir := rfl
  memrd := slotCanonical_empty
  memwr := slotCanonical_empty
  iord := slotCanonical_empty
  iowr := slotCanonical_empty
  sink := slotCanonical_empty
  hist := nofun

theorem LiveInv.startReset {s : State} (live : LiveInv s) : LiveInv (startReset s) :=
  { live with int := rfl, nmi := rfl }

/-- The start of a reset run from a LOW clock with no mark (R220): the run is of RESET_CYCLES cycles, which
R8 bounds. -/
theorem inv_startReset {s : State} (params : s.params.valid) (mark : s.mark = .none) (clk : s.clk = false)
    (live : LiveInv s) : Inv (startReset s) := by
  have ⟨hmin, hmax, _⟩ := params
  have fsm : FsmInv (startReset s) := (fsmInv_run (startReset_fsm s)).2 ⟨mark, by omega, hmax, clk, rfl⟩
  exact .of_live params fsm live.startReset

/-! The commands accepted in IDLE. -/

theorem LiveInv.withSlot {s : State} (live : LiveInv s) (k : Kind) {v : Slot} (canonical : SlotCanonical v) :
    LiveInv { s with ht := withSlot s.ht k v } := by
  cases k with
  | memrd => exact { live with memrd := canonical }
  | memwr => exact { live with memwr := canonical }
  | iord => exact { live with iord := canonical }
  | iowr => exact { live with iowr := canonical }

/-- Every accepted command keeps the invariant; RESET and ADVANCE enter a run whose clock is still LOW. -/
theorem CommandDone.inv {s t : State} (done : CommandDone s t) (inv : Inv s) (idle : s.fsm = .idle) : Inv t := by
  have live := inv.live_idle idle
  obtain ⟨mark, clk, rst⟩ := (fsmInv_idle idle).1 inv.fsm
  cases done with
  | nothing => exact inv
  | advance n pos max =>
    have fsm : FsmInv (setFsm (.run n .hi .host) s) :=
      (fsmInv_run (setFsm_fsm s _)).2 ⟨mark, Nat.pos_of_ne_zero pos, max, clk, rst⟩
    exact .of_live inv.params fsm { live with }
  | reset => exact inv_startReset inv.params mark clk live
  | handler k v canonical => exact .of_live inv.params inv.fsm (live.withSlot k canonical)
  | debug m => exact .of_live inv.params inv.fsm { live with }
  | sink v canonical => exact .of_live inv.params inv.fsm { live with sink := canonical }

/-! The half-cycle. -/

theorem liveInv_openHalf {s : State} (live : LiveInv s) (half : Half) : LiveInv (openHalf half s) :=
  { live with }

/-- What a half-cycle records goes to the space of its kind (R90, R197). -/
theorem recordOf_typed (half : Half) (u : State) : ∀ r ∈ recordOf half u, RecordTyped r := by
  unfold recordOf
  split_ifs <;> simp [RecordTyped]

/-- A completed half-cycle leaves DIR as its own read-strobe says (R155), has counted at most to CNT_MAX
(R152), and has recorded typed records only. -/
theorem HalfCycleDone.live {rem : Nat} {half : Half} {cont : Cont} {u t : State}
    (done : HalfCycleDone rem half cont u t) (live : LiveInv u) : LiveInv t := by
  obtain ⟨room, ends, -, hist, -⟩ := done
  have hlow := live.cntLow
  have hhigh := live.cntHigh
  exact
    { int := ends.int.trans live.int, nmi := ends.nmi.trans live.nmi
      cntLow := by rw [ends.cnt]; split <;> omega
      cntHigh := by
        rw [ends.cnt, ends.params]
        split
        next lo => exact room lo
        · exact hhigh
      dir := by rw [ends.dir, ends.prevRd]
      memrd := ends.ht ▸ live.memrd, memwr := ends.ht ▸ live.memwr
      iord := ends.ht ▸ live.iord, iowr := ends.ht ▸ live.iowr
      sink := ends.sink ▸ live.sink
      hist := fun r hr => (List.mem_append.1 (hist ▸ hr)).elim (live.hist r) (recordOf_typed half u r) }

/-- FSM, CLK and RST after a completed half-cycle of a run (R141, R152, R153, R159, R222). -/
theorem HalfCycleEnds.fsmInv {rem calls : Nat} {half : Half} {cont : Cont} {u t : State}
    (ends : HalfCycleEnds rem half cont calls u t) (mark : u.mark = .none) (pos : 1 ≤ rem)
    (max : rem ≤ Config.advMax) (clk : u.clk = (half == .hi)) (rst : u.rst = (cont == .reset)) :
    FsmInv t := by
  have hfsm := ends.fsm
  have hmark := ends.mark.trans mark
  have hclk := ends.clk.trans clk
  have hrst := ends.rst
  rw [rst] at hrst
  cases half with
  | hi => exact (fsmInv_run hfsm).2 ⟨hmark, pos, max, hclk, hrst⟩
  | lo =>
    by_cases last : rem = 1
    · subst last
      exact (fsmInv_idle hfsm).2 ⟨hmark, hclk, by rw [hrst]; cases cont <;> rfl⟩
    · have hnext : t.fsm = .run (rem - 1) .hi cont := by rw [hfsm, fsmAfter]; exact if_neg last
      have hkeep : t.rst = (cont == .reset) := by rw [hrst]; cases cont <;> simp [rstAfter, last]
      exact (fsmInv_run hnext).2 ⟨hmark, by omega, by omega, hclk, hkeep⟩

theorem HalfCycleDone.inv {rem : Nat} {half : Half} {cont : Cont} {s t : State} (run : s.fsm = .run rem half cont)
    (done : HalfCycleDone rem half cont (openHalf half s) t) (inv : Inv s) : Inv t := by
  obtain ⟨mark, pos, max, -, rst⟩ := (fsmInv_run run).1 inv.fsm
  have live := liveInv_openHalf (inv.live_run run) half
  exact .of_live (done.ends.params ▸ inv.params)
    (done.ends.fsmInv mark pos max (openHalf_clk half s) rst) (done.live live)

/-- Settles O36: by the inversion of a step (`step_cases`). A refusal and a half-cycle that stops the core
leave STOPPED with a mark; INIT establishes the live part afresh; every accepted command and every
completed half-cycle keeps it. -/
theorem everyStepKeepsTheInvariant : Obligations.EveryStepKeepsTheInvariant := by
  intro s t inv hs
  cases step_cases hs with
  | waits => exact inv
  | refuses why => exact .of_stopped inv.params rfl nofun
  | constructs => exact inv_startReset inv.params rfl rfl (liveInv_idleStep _)
  | commands idle done => exact done.inv inv.popCommand idle
  | completes _ _ _ run done => exact done.inv run inv
  | stops _ _ _ _ stopped => exact .of_stopped (stopped.same.params ▸ inv.params) stopped.fsm stopped.mark

/-- Settles O35: power-on is OFF with no mark and R8's parameters. -/
theorem powerOnMeetsTheInvariant : Obligations.PowerOnMeetsTheInvariant where
  params := by unfold Params.valid; decide
  fsm := (fsmInv_off rfl).2 rfl
  live := fun constructed => absurd rfl constructed

/-- Settles O34: the values are those `State.reset` writes out (R55, R8). -/
theorem powerOnValues : Obligations.PowerOnValues :=
  ⟨rfl, rfl, rfl, rfl, rfl, rfl⟩

end Sys2Proof.Machine
end

section
/-! What no step writes, and where no step is. -/

namespace Sys2Proof.Machine

/-- Settles O38: a half-cycle that completes keeps the three by its frame, one that stops the core by
`SameRegisters`. -/
theorem controlRegistersAreConstantInARun : Obligations.ControlRegistersAreConstantInARun := by
  intro s t rem half cont run hs
  rcases step_run_cases run hs with done | stopped
  · exact ⟨done.ends.ht, done.ends.dbg, done.ends.sink⟩
  · exact ⟨stopped.same.ht, stopped.same.dbg, stopped.same.sink⟩

/-- No accepted command counts. -/
theorem CommandDone.cnt {s t : State} (done : CommandDone s t) : t.cnt = s.cnt := by
  cases done <;> rfl

/-- Settles O40: by the inversion of a step. Only INIT, in OFF, and a LOW half-cycle write CNT. -/
theorem onlyTheEndOfACycleCounts : Obligations.OnlyTheEndOfACycleCounts := by
  intro s t hs
  cases step_cases hs with
  | waits => exact .inl rfl
  | refuses why => exact .inl rfl
  | constructs off => exact .inr (.inr ⟨rfl, off⟩)
  | commands _ done => exact .inl done.cnt
  | completes rem half cont run done =>
    have hcnt := done.ends.cnt
    cases half with
    | hi => exact .inl hcnt
    | lo => exact .inr (.inl ⟨hcnt, rem, cont, run⟩)
  | stops rem half cont run stopped =>
    rcases stopped.cnt with same | ⟨rfl, counted⟩
    · exact .inl same
    · exact .inr (.inl ⟨counted, rem, cont, run⟩)

/-- Settles O12: in STOPPED the step and every meaning are `noStep`, which has no next state. -/
theorem stoppedEnablesNoStep : Obligations.StoppedEnablesNoStep := by
  intro s t h
  constructor
  · rw [step_stopped h]; exact noStep_ne_next s t
  · intro i
    rw [exec_stopped h]; exact noStep_ne_next s t

end Sys2Proof.Machine
end

section
/-! The pins and the lines. -/

namespace Sys2Proof.Machine

/-- `s` with the free word of its draw counter as the one word of pins listed. -/
def listFreePins (s : State) : State :=
  { s with env := { s.env with pins := [pinsOfWord (Config.freePins s.env.draws)] } }

/-- With no listed pins the CPU presents the free word, as if it were listed (R30 b). -/
theorem presentPins_unlisted {s : State} (h : s.env.pins = []) :
    presentPins s = presentPins (listFreePins s) := by
  simp [presentPins, nextPins, listFreePins, h]

/-- Settles O11: the sampled state is the same, and the step of a run is a function of it. -/
theorem unlistedPinsAreFree : Obligations.UnlistedPinsAreFree := by
  intro s rem half cont run h
  have hopen : openHalf half s = openHalf half (listFreePins s) :=
    congrArg sample (presentPins_unlisted (s := driveClock half s) h)
  calc step s = exec (decodeKey (class6 (openHalf half s))) (openHalf half s) := step_run run
    _ = exec (decodeKey (class6 (openHalf half (listFreePins s)))) (openHalf half (listFreePins s)) := by
      rw [hopen]
    _ = step (listFreePins s) := (step_run (s := listFreePins s) run).symm

/-- What the core presents on the data pins (R38). -/
theorem dataDrive_eq (s : State) : dataDrive s = if s.dir = .output then some s.dout else none := by
  unfold dataDrive
  cases s.dir <;> rfl

/-- The lines the core drives (R40). -/
theorem lineDriver_core_iff (l : ControlLine) :
    lineDriver l = .core ↔ l = .reset ∨ l = .interrupt ∨ l = .nonMaskableInterrupt ∨ l = .clock := by
  cases l <;> decide

/-- The clock alone is active-high (R41). -/
theorem lineLevel_high_iff (l : ControlLine) (b : Bool) :
    lineLevel l b = .high ↔ (l = .clock ∧ b = true) ∨ (l ≠ .clock ∧ b = false) := by
  cases l <;> cases b <;> decide

/-- A line's level gives its asserted state back (R11, R41). -/
@[simp] theorem lineAsserted_lineLevel (l : ControlLine) (b : Bool) : lineAsserted l (lineLevel l b) = b := by
  cases l <;> cases b <;> rfl

/-- Settles O55: each rule by the lines and the two values of a control bit. -/
theorem linesDriversAndLevels : Obligations.LinesDriversAndLevels :=
  ⟨dataDrive_eq, lineDriver_core_iff, lineLevel_high_iff, lineAsserted_lineLevel,
    fun _ => ⟨rfl, rfl, rfl, rfl, rfl, rfl, rfl, rfl, rfl, rfl⟩⟩

end Sys2Proof.Machine
end

section
/-! The history and the I/O space (20_memory.md R82, R87, R88, R90). -/

namespace Sys2Proof.Machine

/-! HIST over one step. -/

/-- A half-cycle records at most one transaction (R197). -/
theorem recordOf_eq_nil_or_singleton (half : Half) (u : State) :
    recordOf half u = [] ∨ ∃ r, recordOf half u = [r] := by
  unfold recordOf
  split_ifs <;> simp

/-- Whether it completes or stops the core, a half-cycle keeps HIST or appends what it records. -/
theorem step_run_hist {s t : State} {rem : Nat} {half : Half} {cont : Cont}
    (run : s.fsm = .run rem half cont) (hs : step s = .next t) :
    t.hist = s.hist ∨ t.hist = s.hist ++ recordOf half (openHalf half s) := by
  rcases step_run_cases run hs with done | stopped
  · exact .inr done.hist
  · exact stopped.hist

/-- No accepted command but INIT writes HIST. -/
theorem CommandDone.hist {s t : State} (done : CommandDone s t) : t.hist = s.hist := by
  cases done <;> rfl

/-- Outside a run only INIT, in OFF, writes HIST. -/
theorem step_between_hist {s t : State} (hs : step s = .next t) (constructed : s.fsm ≠ .off)
    (noRun : ∀ rem half cont, s.fsm ≠ .run rem half cont) : t.hist = s.hist := by
  cases step_cases hs with
  | waits => rfl
  | refuses => rfl
  | constructs off => exact absurd off constructed
  | commands _ done => exact done.hist
  | completes _ _ _ run => exact absurd run (noRun _ _ _)
  | stops _ _ _ run => exact absurd run (noRun _ _ _)

/-- Settles O41: in a run by what the half-cycle records (`step_run_hist`), a list of at most one record;
elsewhere HIST is kept. -/
theorem historyOnlyGrows : Obligations.HistoryOnlyGrows := by
  intro s t hs constructed
  by_cases running : ∃ rem half cont, s.fsm = .run rem half cont
  · obtain ⟨rem, half, cont, run⟩ := running
    rcases step_run_hist run hs with same | grown
    · exact .inl same
    · rcases recordOf_eq_nil_or_singleton half (openHalf half s) with none | ⟨r, one⟩
      · rw [none, List.append_nil] at grown
        exact .inl grown
      · exact .inr ⟨⟨rem, half, cont, run⟩, r, one ▸ grown⟩
  · exact .inl (step_between_hist hs constructed fun rem half cont run => running ⟨rem, half, cont, run⟩)

/-! What an I/O dispatch sees of the snapshot. -/

/-- `s` with another snapshot. -/
def withSnap (n : Snap) (s : State) : State := { s with snap := n }

@[simp] theorem withSnap_ht (n : Snap) (s : State) : (withSnap n s).ht = s.ht := rfl
@[simp] theorem withSnap_hist (n : Snap) (s : State) : (withSnap n s).hist = s.hist := rfl
@[simp] theorem withSnap_env (n : Snap) (s : State) : (withSnap n s).env = s.env := rfl
@[simp] theorem nextReply_withSnap (v : Byte) (n : Snap) (s : State) :
    nextReply v (withSnap n s) = nextReply v s := rfl

/-- A call and what follows its return look at SNAP only if what follows does: whether the party re-enters
is the reply's alone (R264). -/
theorem callThen_withSnap (r : Reply) (n : Snap) (s : State) {f : State → State}
    (follows : ∀ u, f (withSnap n u) = withSnap n (f u)) :
    phaseState (phaseThen (callWith r (withSnap n s)) fun u => .go (f u)) =
      withSnap n (phaseState (phaseThen (callWith r s) fun u => .go (f u))) := by
  unfold callWith
  cases r.command with
  | none => exact follows (dropReply s)
  | some w => rfl

/-- A read dispatch sees SNAP only through the location it is given (R191): with another snapshot in the
state it does the same, whether the responder answers, re-enters, or is not installed. -/
theorem dispatchRead_withSnap (k : Kind) (loc : Location) (half : Half) (n : Snap) (s : State) :
    phaseState (dispatchRead k loc half (withSnap n s)) =
      withSnap n (phaseState (dispatchRead k loc half s)) := by
  unfold dispatchRead
  simp only [withSnap_ht, withSnap_hist, withSnap_env, nextReply_withSnap]
  by_cases installed : (slotOf s.ht k).inst = true
  · simp only [installed, if_true]
    exact callThen_withSnap _ n s fun _ => rfl
  · simp only [installed]
    rfl

/-- A write dispatch sees SNAP only through the location and the data it is given (R192). -/
theorem dispatchWrite_withSnap (k : Kind) (loc : Location) (d : Byte) (half : Half) (n : Snap) (s : State) :
    phaseState (dispatchWrite k loc d half (withSnap n s)) =
      withSnap n (phaseState (dispatchWrite k loc d half s)) := by
  unfold dispatchWrite
  simp only [withSnap_ht, nextReply_withSnap]
  by_cases installed : (slotOf s.ht k).inst = true
  · simp only [installed, if_true]
    exact callThen_withSnap _ n s fun _ => rfl
  · simp only [installed]
    rfl

/-! What a half-cycle leaves in DOUT and HIST. -/

/-- Steps 5 to 7 write neither DOUT nor HIST: the half-cycle leaves what the class's own part leaves. -/
theorem halfCycle_dout_hist {s t : State} {rem : Nat} {half : Half} {cont : Cont}
    {body : Half → State → Phase} (run : s.fsm = .run rem half cont) (ht : halfCycle body s = .next t) :
    t.dout = (phaseState (body half s)).dout ∧ t.hist = (phaseState (body half s)).hist := by
  rw [halfCycle_run run] at ht
  cases ht
  cases body half s with
  | halt u => exact ⟨rfl, rfl⟩
  | go u =>
    obtain ⟨v, dout, hist, -, ⟨hclose, -⟩ | ⟨hclose, -⟩⟩ := closeHalf_cases rem half cont u
    all_goals
      rw [phaseThen_go, hclose]
      exact ⟨dout, hist⟩

/-- Two half-cycles of a class whose own part differs in SNAP only leave the same DOUT and HIST. -/
theorem halfCycle_dout_hist_congr {s s' t t' : State} {rem : Nat} {half : Half} {cont : Cont}
    {body : Half → State → Phase} {n : Snap}
    (ht : halfCycle body s = .next t) (ht' : halfCycle body s' = .next t')
    (run : s.fsm = .run rem half cont) (run' : s'.fsm = .run rem half cont)
    (same : phaseState (body half s') = withSnap n (phaseState (body half s))) :
    t'.dout = t.dout ∧ t'.hist = t.hist := by
  obtain ⟨dout, hist⟩ := halfCycle_dout_hist run ht
  obtain ⟨dout', hist'⟩ := halfCycle_dout_hist run' ht'
  rw [same] at dout' hist'
  exact ⟨dout'.trans dout.symm, hist'.trans hist.symm⟩

/-- IO_READ's own part (R181). -/
def ioReadPart (half : Half) (s : State) : Phase :=
  dispatchRead .iord (.port (portOf s.snap.a)) half (turnBus .output s)

theorem exec_ioRead (wr prevWr : Bool) (s : State) : exec (.ioRead wr prevWr) s = halfCycle ioReadPart s := rfl

/-- IO_WRITE's own part: the switch keeps the address, and the data are the CPU's (R172, R185). -/
def ioWritePart (half : Half) (s : State) : Phase :=
  dispatchWrite .iowr (.port (portOf s.snap.a)) s.env.pinsNow.d half (takeWriteData s)

theorem exec_ioWrite (prevRd : Bool) (s : State) : exec (.ioWrite prevRd) s = halfCycle ioWritePart s := rfl

/-- With another address of the same port, IO_READ's part differs in SNAP only (R82, R87). -/
theorem ioReadPart_samePort {a : Addr} {s : State} (port : portOf a = portOf s.snap.a) (half : Half) :
    phaseState (ioReadPart half { s with snap := { s.snap with a := a } }) =
      withSnap { s.snap with a := a } (phaseState (ioReadPart half s)) := by
  unfold ioReadPart
  rw [← dispatchRead_withSnap, ← port]
  rfl

/-- With another address of the same port, IO_WRITE's part differs in SNAP only (R82, R87). -/
theorem ioWritePart_samePort {a : Addr} {s : State} (port : portOf a = portOf s.snap.a) (half : Half) :
    phaseState (ioWritePart half { s with snap := { s.snap with a := a } }) =
      withSnap { s.snap with a := a, d := s.env.pinsNow.d } (phaseState (ioWritePart half s)) := by
  unfold ioWritePart
  rw [← dispatchWrite_withSnap, ← port]
  rfl

/-- Settles O42: the class's own part reads the address through its port only, and the rest of the
half-cycle writes neither DOUT nor HIST. -/
theorem portIgnoresTheHighAddressByte : Obligations.PortIgnoresTheHighAddressByte := by
  intro s t t' a i rem half cont run samePort io ht ht'
  have port : portOf a = portOf s.snap.a := samePort.symm
  rcases io with ⟨wr, prevWr, rfl⟩ | ⟨prevRd, rfl⟩
  · rw [exec_ioRead] at ht ht'
    exact halfCycle_dout_hist_congr ht ht' run run (ioReadPart_samePort port half)
  · rw [exec_ioWrite] at ht ht'
    exact halfCycle_dout_hist_congr ht ht' run run (ioWritePart_samePort port half)

end Sys2Proof.Machine
end

section
/-! The two formats (30_encoding.md R102, R103, R111, R115, R120): decoder and encoder agree on every
instruction and on every accepted word, and the reserved command words are those of R120. -/

namespace Sys2Proof

/-! Keys: the decoder is the branch structure of R175, the encoder its inverse. -/

/-- A snapshot that shows the four bits of a key that are sampled (R102); its other bits are 0. -/
def strobeSnap (rd wr mreq iorq : Bool) : Snap :=
  { Machine.zeroSnap with rd := rd, wr := wr, mreq := mreq, iorq := iorq }

/-- The class of a key given by its six bits is the one the branches of R175 pick. -/
theorem decodeKey_keyOf (rd prevRd wr prevWr mreq iorq : Bool) :
    decodeKey (keyOf rd prevRd wr prevWr mreq iorq) =
      Machine.classify (strobeSnap rd wr mreq iorq) prevRd prevWr :=
  Machine.decodeKey_class6 { Machine.State.reset with
    snap := strobeSnap rd wr mreq iorq, prevRd := prevRd, prevWr := prevWr }

/-- The encoding of the class that the branches of R175 pick is the key they read (R102, R115). -/
theorem encode_classify (snap : Snap) (prevRd prevWr : Bool) :
    encode (Machine.classify snap prevRd prevWr) =
      .key (keyOf snap.rd prevRd snap.wr prevWr snap.mreq snap.iorq) := by
  unfold Machine.classify
  split_ifs <;> simp [encode, *]

theorem classify_wellFormed (snap : Snap) (prevRd prevWr : Bool) :
    (Machine.classify snap prevRd prevWr).wellFormed = true := by
  unfold Machine.classify
  split_ifs <;> rfl

theorem decodeKey_wellFormed (k : Key) : (decodeKey k).wellFormed = true := by
  rw [← keyOf_bits k, decodeKey_keyOf]
  exact classify_wellFormed ..

theorem encode_decodeKey (k : Key) : encode (decodeKey k) = .key k := by
  rw [← keyOf_bits k, decodeKey_keyOf, encode_classify]
  rfl

/-! Command words. -/

theorem codeOfKind_lt (k : Kind) : (codeOfKind k).toNat < 4 := by cases k <;> decide

/-- SETDBG's operand holds its mask alone when it has no bit above 3:0 (R105). -/
theorem mask_setWidth {arg : BitVec 32} (h : arg.toNat < 16) : (arg.setWidth 4).setWidth 32 = arg := by
  apply BitVec.eq_of_toNat_eq
  rw [BitVec.toNat_setWidth, BitVec.toNat_setWidth]
  omega

/-- Settles O1: a command word is decoded from its fields (`decodeCommand_cmdWord`), a key from its bits
(`decodeKey_keyOf`). -/
theorem decodeOfEncodeIsTheInstruction : Obligations.DecodeOfEncodeIsTheInstruction := by
  intro i wf
  cases i
  case advance n =>
    have bound : n ≤ Config.advMax := of_decide_eq_true wf
    have lt : n < 4294967296 := Nat.lt_succ_of_le bound
    simp [encode, decode, decodeCommand_cmdWord, Nat.mod_eq_of_lt lt]
  case init | reset | setsink | clrsink => simp [encode, decode, decodeCommand_cmdWord]
  case seth k h => simp [encode, decode, decodeCommand_cmdWord, codeOfKind_lt]
  case clrh k => simp [encode, decode, decodeCommand_cmdWord, codeOfKind_lt]
  case setdbg m =>
    have small : m.toNat % 4294967296 < 16 := (Nat.mod_le ..).trans_lt m.isLt
    simp [encode, decode, decodeCommand_cmdWord, small]
  all_goals
    rw [encode, decode, decodeKey_keyOf]
    rfl

/-- An accepted command word is its instruction's encoding: each row of R111 fixes the fields that its
instruction does not carry. -/
theorem encode_of_decodeCommand {w : CmdWord} {i : Instr} (h : decodeCommand w = .instr i) :
    encode i = .command w := by
  rw [← cmdWord_fields w] at h ⊢
  generalize cmdOp w = op, cmdSel w = sel, cmdArg w = arg at h ⊢
  rw [decodeCommand_cmdWord] at h
  split_ifs at h with init advance reset seth clrh setdbg setsink clrsink <;> cases h
  · obtain ⟨rfl, rfl, rfl⟩ := init; rfl
  · obtain ⟨rfl, rfl⟩ := advance; simp [encode]
  · obtain ⟨rfl, rfl, rfl⟩ := reset; rfl
  · obtain ⟨rfl, code⟩ := seth; rw [encode, codeOfKind_kindOfCode sel code]
  · obtain ⟨rfl, code, rfl⟩ := clrh; rw [encode, codeOfKind_kindOfCode sel code]
  · obtain ⟨rfl, rfl, low⟩ := setdbg; rw [encode, mask_setWidth low]
  · obtain ⟨rfl, rfl⟩ := setsink; rfl
  · obtain ⟨rfl, rfl, rfl⟩ := clrsink; rfl

/-- Settles O2: a command word by its row (`encode_of_decodeCommand`), a key by its bits
(`encode_decodeKey`). -/
theorem encodeOfDecodeIsTheWord : Obligations.EncodeOfDecodeIsTheWord := by
  intro w i h
  cases w with
  | command w => exact ⟨Machine.wellFormed_of_decode h, encode_of_decodeCommand h⟩
  | key k =>
    cases h
    exact ⟨decodeKey_wellFormed k, encode_decodeKey k⟩

/-- The rejection is what none of the eight rows of R111 takes, the fields read as numbers. -/
theorem reserved_iff_noRow (op sel : BitVec 4) (arg : BitVec 32) :
    (∃ why, decodeCommand (cmdWord op sel arg) = .reserved why) ↔
      ¬ (op.toNat = 0 ∧ sel.toNat = 0 ∧ arg.toNat = 0) ∧ ¬ (op.toNat = 1 ∧ sel.toNat = 0) ∧
      ¬ (op.toNat = 2 ∧ sel.toNat = 0 ∧ arg.toNat = 0) ∧ ¬ (op.toNat = 3 ∧ sel.toNat < 4) ∧
      ¬ (op.toNat = 4 ∧ sel.toNat < 4 ∧ arg.toNat = 0) ∧
      ¬ (op.toNat = 5 ∧ sel.toNat = 0 ∧ arg.toNat < 16) ∧ ¬ (op.toNat = 6 ∧ sel.toNat = 0) ∧
      ¬ (op.toNat = 7 ∧ sel.toNat = 0 ∧ arg.toNat = 0) := by
  rw [decodeCommand_cmdWord]
  simp only [← BitVec.toNat_inj]
  split_ifs <;> simp_all

/-- R120: the rejected words, from what the rows of R111 leave. -/
theorem decodeCommand_reserved_iff (w : CmdWord) :
    (∃ why, decodeCommand w = .reserved why) ↔
      8 ≤ (cmdOp w).toNat ∨
      (((cmdOp w).toNat = 3 ∨ (cmdOp w).toNat = 4) ∧ 4 ≤ (cmdSel w).toNat) ∨
      (((cmdOp w).toNat = 0 ∨ (cmdOp w).toNat = 1 ∨ (cmdOp w).toNat = 2 ∨ (cmdOp w).toNat = 5 ∨
        (cmdOp w).toNat = 6 ∨ (cmdOp w).toNat = 7) ∧ (cmdSel w).toNat ≠ 0) ∨
      (((cmdOp w).toNat = 0 ∨ (cmdOp w).toNat = 2 ∨ (cmdOp w).toNat = 4 ∨ (cmdOp w).toNat = 7) ∧
        (cmdArg w).toNat ≠ 0) ∨
      ((cmdOp w).toNat = 5 ∧ 16 ≤ (cmdArg w).toNat) := by
  have rows := reserved_iff_noRow (cmdOp w) (cmdSel w) (cmdArg w)
  rw [cmdWord_fields] at rows
  rw [rows]
  generalize (cmdOp w).toNat = op, (cmdSel w).toNat = sel, (cmdArg w).toNat = arg
  rcases Nat.lt_or_ge op 8 with used | unused
  · interval_cases op <;> omega
  · omega

/-- Settles O3: what no row of R111 takes is what R120 lists (`decodeCommand_reserved_iff`); the step on
such a word is the refusal, in the state with the queue popped (`Machine.step_reserved`). -/
theorem reservedEncodingsAreExactlyThoseListed : Obligations.ReservedEncodingsAreExactlyThoseListed := by
  intro w
  refine ⟨decodeCommand_reserved_iff w, ?_⟩
  intro s ws why between queue rejected
  rw [Machine.step_reserved between queue rejected, Machine.popCommand_of_cons queue]
  rfl

/-- Settles O6: each fixed word is evaluated against the rows of its map (R111, R115). -/
theorem writtenOutWordsDecode : Obligations.WrittenOutWordsDecode := by
  unfold Obligations.WrittenOutWordsDecode
  decide

end Sys2Proof
end

section
/-! The words SNAP40 and PINS30 (30_encoding.md R100, R101), read field by field from their bits. -/

namespace Sys2Proof.Machine

/-- A field of a word is given by its bits. -/
theorem extractLsb'_eq_of_bits {n k start : Nat} {w : BitVec n} {x : BitVec k}
    (bits : ∀ i < k, w.getLsbD (start + i) = x.getLsbD i) : w.extractLsb' start k = x :=
  BitVec.eq_of_getLsbD_eq fun i hi => by
    rw [BitVec.getLsbD_extractLsb', decide_eq_true hi, Bool.true_and, bits i hi]

theorem wordOfSnap_addr (s : Snap) : (wordOfSnap s).extractLsb' 0 16 = s.a :=
  extractLsb'_eq_of_bits fun i hi => by rw [wordOfSnap_bit, if_pos (by omega), Nat.zero_add]

theorem wordOfSnap_data (s : Snap) : (wordOfSnap s).extractLsb' 16 8 = s.d :=
  extractLsb'_eq_of_bits fun i hi => by
    rw [wordOfSnap_bit, if_neg (by omega), if_pos (by omega), Nat.add_sub_cancel_left]

theorem wordOfSnap_reserved (s : Snap) : (wordOfSnap s).extractLsb' 34 6 = 0 :=
  extractLsb'_eq_of_bits fun i hi => by
    rw [wordOfSnap_bit]
    interval_cases i <;> rfl

theorem snapOfWord_wordOfSnap (s : Snap) : snapOfWord (wordOfSnap s) = s := by
  simp only [snapOfWord, wordOfSnap_addr, wordOfSnap_data, wordOfSnap_bit]
  rfl

/-- Settles O7: the two buses and the reserved bits as fields, each control bit by `wordOfSnap_bit`. -/
theorem snapshotWordLayout : Obligations.SnapshotWordLayout := by
  intro s
  refine ⟨wordOfSnap_addr s, wordOfSnap_data s, ?_, ?_, ?_, ?_, ?_, ?_, ?_, ?_, ?_, ?_, wordOfSnap_reserved s,
    snapOfWord_wordOfSnap s⟩
  all_goals
    rw [wordOfSnap_bit]
    rfl

theorem wordOfPins_addr (p : Pins) : (wordOfPins p).extractLsb' 0 16 = p.a :=
  extractLsb'_eq_of_bits fun i hi => by rw [wordOfPins_bit, if_pos (by omega), Nat.zero_add]

theorem wordOfPins_data (p : Pins) : (wordOfPins p).extractLsb' 16 8 = p.d :=
  extractLsb'_eq_of_bits fun i hi => by
    rw [wordOfPins_bit, if_neg (by omega), if_pos (by omega), Nat.add_sub_cancel_left]

theorem pinsOfWord_wordOfPins (p : Pins) : pinsOfWord (wordOfPins p) = p := by
  simp only [pinsOfWord, wordOfPins_addr, wordOfPins_data, wordOfPins_bit]
  rfl

theorem wordOfPins_pinsOfWord (w : PinWord) : wordOfPins (pinsOfWord w) = w := by
  apply BitVec.eq_of_getLsbD_eq
  intro i hi
  rw [wordOfPins_bit]
  unfold pinsOfWord
  by_cases addr : i < 16
  · simp [addr]
  by_cases data : i < 24
  · simp [addr, data, show i - 16 < 8 by omega, show 16 + (i - 16) = i by omega]
  · interval_cases i <;> rfl

/-- With the same lines in both, PINS30 is bits 29:0 of SNAP40 (R101). -/
theorem wordOfSnap_pins (p : Pins) (rst int nmi clk : Bool) :
    (wordOfSnap ⟨p.a, p.d, p.rd, p.wr, p.mreq, p.iorq, p.m1, p.rfsh, rst, int, nmi, clk⟩).extractLsb' 0 30 =
      wordOfPins p :=
  extractLsb'_eq_of_bits fun i hi => by
    rw [Nat.zero_add, wordOfSnap_bit, wordOfPins_bit]
    simp only [show i ≠ 30 by omega, show i ≠ 31 by omega, show i ≠ 32 by omega, show i ≠ 33 by omega,
      if_false]

/-- Settles O8: the two readings are inverse, and the bits of the two words agree below 30. -/
theorem pinWordLayout : Obligations.PinWordLayout := by
  refine ⟨pinsOfWord_wordOfPins, wordOfPins_pinsOfWord, ?_⟩
  rintro p ⟨a, d, rd, wr, mreq, iorq, m1, rfsh, rst, int, nmi, clk⟩ rfl rfl rfl rfl rfl rfl rfl rfl
  exact wordOfSnap_pins p rst int nmi clk

end Sys2Proof.Machine
end

section
/-! The text of host commands (30_encoding.md R130). -/

namespace Sys2Proof.Machine

/-- Settles O57: each line is tokenised, assembled and encoded. -/
theorem syntaxExamplesAssemble : Obligations.SyntaxExamplesAssemble := by
  refine ⟨?_, ?_, ?_⟩ <;> decide

end Sys2Proof.Machine
end

section
/-! The start of a run, and one half-cycle of it (40_bus_cycle.md R140 to R142, R150, R155). -/

namespace Sys2Proof.Machine

/-! ADVANCE and the sampled state. -/

/-- ADVANCE is accepted in IDLE only, and its effect there is the start of a run (R140, R264). -/
theorem exec_advance (n : Nat) (s : State) :
    exec (.advance n) s = acceptIdle (acceptedEffect (.advance n)) s := rfl

/-- Settles O14: ADVANCE's acceptance (`exec_advance`) in each state of FSM. -/
theorem advanceStartsARun : Obligations.AdvanceStartsARun := by
  intro n s
  rw [exec_advance]
  refine ⟨fun idle zero => ?_, fun idle pos => ?_, fun off => acceptIdle_off off _,
    fun _ _ _ run => acceptIdle_run run _, fun stopped t => ?_⟩
  · rw [acceptIdle_idle idle, acceptedEffect, if_pos zero]
  · rw [acceptIdle_idle idle, acceptedEffect, if_neg pos]
    rfl
  · rw [acceptIdle_stopped stopped]
    exact noStep_ne_next s t

/-- A class's meaning is a half-cycle with a part of its own (R142). -/
theorem exec_class {i : Instr} (hi : i.isCommand = false) :
    ∃ body, ∀ s, exec i s = halfCycle body s := by
  cases i
  case init | advance | reset | seth | clrh | setdbg | setsink | clrsink => cases hi
  all_goals exact ⟨_, fun _ => rfl⟩

/-- A half-cycle that has a next state is one of a run (R142). -/
theorem fsm_of_halfCycle {body : Half → State → Phase} {s t : State} (h : halfCycle body s = .next t) :
    ∃ rem half cont, s.fsm = .run rem half cont := by
  unfold halfCycle at h
  split at h
  next rem half cont run => exact ⟨rem, half, cont, run⟩
  · exact absurd h (noStep_ne_next s t)
  all_goals cases h

/-- Settles O30: a class's meaning is a half-cycle (`exec_class`), which has a next state in RUN only. -/
theorem halfCycleOnlyInRun : Obligations.HalfCycleOnlyInRun := by
  intro i s t hi noRun h
  obtain ⟨body, hbody⟩ := exec_class hi
  rw [hbody] at h
  obtain ⟨rem, half, cont, run⟩ := fsm_of_halfCycle h
  exact noRun rem half cont run

theorem nextPins_of_cons {s : State} {p : Pins} {ps : List Pins} (listed : s.env.pins = p :: ps) :
    nextPins s = p := by
  simp [nextPins, listed]

/-- The sampled state when the CPU's next pins are listed, written out (R141, R170, R171). -/
theorem openHalf_of_cons (half : Half) {s : State} {p : Pins} {ps : List Pins}
    (listed : s.env.pins = p :: ps) :
    openHalf half s = { s with
      clk := half == .hi
      snap := { a := p.a, d := if s.dir = .output then s.dout else p.d, rd := p.rd, wr := p.wr,
                mreq := p.mreq, iorq := p.iorq, m1 := p.m1, rfsh := p.rfsh,
                rst := s.rst, int := s.int, nmi := s.nmi, clk := half == .hi }
      env := { s.env with pinsNow := p, pins := ps, draws := s.env.draws + 1 } } := by
  have clk : (driveClock half s).clk = (half == .hi) := by cases half <;> rfl
  have data : readDataPins s p.d = if s.dir = .output then s.dout else p.d := by
    unfold readDataPins; cases s.dir <;> rfl
  have pins : presentPins (driveClock half s) = { driveClock half s with
      env := { s.env with pinsNow := p, pins := ps, draws := s.env.draws + 1 } } := by
    simp [presentPins, nextPins, listed]
  rw [openHalf, pins, ← data, ← clk]
  simp only [sample, addrOfBytes_split]
  rfl

/-- Settles O10: the step of a run (`step_run`) from the sampled state written out (`openHalf_of_cons`). -/
theorem stepRunsTheHalfCyclesClass : Obligations.StepRunsTheHalfCyclesClass := by
  intro s rem half cont p ps run listed
  refine ⟨openHalf half s, openHalf_of_cons half listed, ?_⟩
  rw [step_run run]
  simp [class6, nextPins_of_cons listed]

/-! The direction after a half-cycle. -/

/-- Steps 5 to 7 leave DIR as the snapshot's read-strobe says, whether they end the half-cycle or stop the
core (R150). -/
theorem closeHalf_dir (rem : Nat) (half : Half) (cont : Cont) (s : State) :
    (phaseState (closeHalf rem half cont s)).dir = holdDir (phaseState (closeHalf rem half cont s)).snap := by
  obtain ⟨t, -, -, snap, ⟨hclose, -, ends⟩ | ⟨hclose, stop⟩⟩ := closeHalf_cases rem half cont s
  · rw [hclose, phaseState_go, snap]
    exact ends.dir
  · obtain ⟨-, -, dir, -⟩ := stop
    rw [hclose, phaseState_halt, snap, dir]

/-- Unless a responder's re-entry stops it before step 6, a half-cycle leaves DIR as the read-strobe says
(R155). -/
theorem step_run_dir {s t : State} {rem : Nat} {half : Half} {cont : Cont}
    (run : s.fsm = .run rem half cont) (hs : step s = .next t) :
    t.dir = holdDir t.snap ∨ ∃ why, t.mark = .refused why := by
  rw [step_run run, decodeKey_class6] at hs
  obtain ⟨b, hb, e, d, -, hgo | ⟨-, why, hhalt⟩⟩ := exec_classify (u := openHalf half s) run
  · rw [hb, hgo, phaseThen_go] at hs
    cases hs
    exact .inl (closeHalf_dir ..)
  · rw [hb, hhalt, phaseThen_halt] at hs
    cases hs
    exact .inr ⟨why, rfl⟩

theorem holdDir_input_iff (snap : Snap) : holdDir snap = .input ↔ snap.rd = false := by
  unfold holdDir; cases snap.rd <;> simp

theorem holdDir_output_iff (snap : Snap) : holdDir snap = .output ↔ snap.rd = true := by
  unfold holdDir; cases snap.rd <;> simp

/-- Settles O37: with no refusal the half-cycle has done its step 6 (`step_run_dir`). -/
theorem directionFollowsTheReadStrobe : Obligations.DirectionFollowsTheReadStrobe := by
  intro s t rem half cont run hs notRefused
  rcases step_run_dir run hs with dir | ⟨why, refused⟩
  · rw [dir]
    exact ⟨holdDir_input_iff _, holdDir_output_iff _⟩
  · exact absurd refused (notRefused why)

end Sys2Proof.Machine
end

section
/-! Runs of n cycles (40_bus_cycle.md R153, R154, R158): where a run stands after each of its half-cycles,
for a core that no call stops (`Quiet`). -/

namespace Sys2Proof.Machine

/-- The step after `k` steps. -/
theorem runSteps_snoc {k : Nat} {s u t : State} (hu : runSteps k s = .next u) (ht : step u = .next t) :
    runSteps (k + 1) s = .next t := by
  induction k generalizing s with
  | zero => cases hu; exact runSteps_succ ht 0
  | succ k ih =>
    obtain ⟨v, hv, hrest⟩ := runSteps_of_succ hu
    rw [runSteps_succ hv]
    exact ih hrest

/-- A half-cycle of a quiet run that has room in its counter completes (R142). -/
theorem step_of_quiet_run {s : State} {rem : Nat} {half : Half} {cont : Cont}
    (run : s.fsm = .run rem half cont) (quiet : Quiet s) (room : half = .lo → s.cnt < s.params.cntMax) :
    ∃ t, step s = .next t ∧ HalfCycleDone rem half cont (openHalf half s) t := by
  obtain ⟨t, hexec, done | stopped⟩ := halfCycle_cases (u := openHalf half s) run
  · exact ⟨t, by rw [step_run run, decodeKey_class6, hexec], done⟩
  · exact absurd quiet (stopped.not_quiet room)

/-- What the half-cycles of a run leave as it was, from `s` to `t`. -/
structure RunKeeps (s t : State) : Prop where
  int    : t.int = s.int
  nmi    : t.nmi = s.nmi
  ht     : t.ht = s.ht
  dbg    : t.dbg = s.dbg
  sink   : t.sink = s.sink
  mark   : t.mark = s.mark
  params : t.params = s.params
  commands : t.env.commands = s.env.commands
  quiet  : Quiet s → Quiet t

theorem RunKeeps.refl (s : State) : RunKeeps s s := ⟨rfl, rfl, rfl, rfl, rfl, rfl, rfl, rfl, id⟩

theorem RunKeeps.trans {s u t : State} (h : RunKeeps s u) (k : RunKeeps u t) : RunKeeps s t :=
  ⟨k.int.trans h.int, k.nmi.trans h.nmi, k.ht.trans h.ht, k.dbg.trans h.dbg, k.sink.trans h.sink,
    k.mark.trans h.mark, k.params.trans h.params, k.commands.trans h.commands, k.quiet ∘ h.quiet⟩

theorem HalfCycleDone.keeps {s t : State} {rem : Nat} {half : Half} {cont : Cont}
    (done : HalfCycleDone rem half cont (openHalf half s) t) : RunKeeps s t :=
  have ends := done.ends
  { int := ends.int, nmi := ends.nmi, ht := ends.ht, dbg := ends.dbg, sink := ends.sink,
    mark := ends.mark, params := ends.params, commands := ends.commands,
    quiet := fun quiet => Quiet.keep (s := openHalf half s) quiet
      ⟨ends.commands, ends.pins, ends.pinsNow, ends.replies⟩ ends.ht ends.sink }

/-- The half that follows `k` half-cycles of a run: HIGH first, then LOW, in turn (R141). -/
def halfAt (k : Nat) : Half := if k % 2 = 0 then .hi else .lo

theorem halfAt_even {k : Nat} (even : k % 2 = 0) : halfAt k = .hi := if_pos even

theorem halfAt_odd {k : Nat} (odd : k % 2 = 1) : halfAt k = .lo := if_neg (by omega)

/-- Where a run of `n` cycles from `s` stands after `k` of its half-cycles, `k < 2 * n`: `k / 2` cycles have
ended and been counted, and the reset tail (R222) has not run. -/
structure RunAt (n : Nat) (cont : Cont) (k : Nat) (s u : State) : Prop where
  fsm   : u.fsm = .run (n - k / 2) (halfAt k) cont
  cnt   : u.cnt = s.cnt + (k / 2 : Nat)
  rst   : u.rst = s.rst
  keeps : RunKeeps s u

/-- A half-cycle that is not the run's last goes to the cycle's LOW half or to the next cycle (R152). -/
theorem RunAt.next {n k : Nat} {cont : Cont} {s u t : State} (now : RunAt n cont k s u) (more : k + 1 < 2 * n)
    (done : HalfCycleDone (n - k / 2) (halfAt k) cont (openHalf (halfAt k) u) t) :
    RunAt n cont (k + 1) s t := by
  have keeps := now.keeps.trans done.keeps
  have hfsm := done.ends.fsm
  have hcnt := done.ends.cnt
  have hrst := done.ends.rst
  rw [openHalf_cnt, now.cnt] at hcnt
  rw [openHalf_rst, now.rst] at hrst
  rcases Nat.mod_two_eq_zero_or_one k with even | odd
  · have same : (k + 1) / 2 = k / 2 := by omega
    rw [halfAt_even even] at hfsm hcnt hrst
    exact
      { fsm := by rw [halfAt_odd (by omega), same]; exact hfsm
        cnt := by rw [same]; exact hcnt
        rst := hrst
        keeps := keeps }
  · have up : (k + 1) / 2 = k / 2 + 1 := by omega
    have notLast : n - k / 2 ≠ 1 := by omega
    rw [halfAt_odd odd] at hfsm hcnt hrst
    rw [fsmAfter, if_neg notLast, Nat.sub_sub, ← up] at hfsm
    rw [if_pos rfl] at hcnt
    exact
      { fsm := by rw [halfAt_even (by omega)]; exact hfsm
        cnt := by omega
        rst := by rw [hrst]; cases cont <;> simp [rstAfter, notLast]
        keeps := keeps }

section
variable {n : Nat} {cont : Cont} {s : State} (run : s.fsm = .run n .hi cont) (quiet : Quiet s)
  (room : s.cnt + n ≤ s.params.cntMax)
include quiet room

/-- From every point of the run the next half-cycle completes: the counter has room for each cycle (R158). -/
theorem RunAt.step {k : Nat} {u : State} (now : RunAt n cont k s u) (before : k < 2 * n) :
    ∃ t, step u = .next t ∧ HalfCycleDone (n - k / 2) (halfAt k) cont (openHalf (halfAt k) u) t := by
  refine step_of_quiet_run now.fsm (now.keeps.quiet quiet) fun _ => ?_
  rw [now.cnt, now.keeps.params]
  omega

include run

/-- The run after each of its half-cycles but the last (R154). -/
theorem runAt_of_lt {k : Nat} (before : k < 2 * n) : ∃ u, runSteps k s = .next u ∧ RunAt n cont k s u := by
  induction k with
  | zero => exact ⟨s, rfl, run, by simp, rfl, .refl s⟩
  | succ k ih =>
    obtain ⟨u, hu, now⟩ := ih (by omega)
    obtain ⟨t, ht, done⟩ := now.step quiet room (by omega)
    exact ⟨t, runSteps_snoc hu ht, now.next before done⟩

/-- The end of the run, after its last LOW half-cycle (R153, R158, R222). -/
theorem run_completes (pos : 1 ≤ n) :
    ∃ t, runSteps (2 * n) s = .next t ∧ t.fsm = .idle ∧ t.cnt = s.cnt + n ∧ t.clk = false ∧
      t.rst = (if cont = .reset then false else s.rst) ∧ RunKeeps s t := by
  obtain ⟨m, rfl⟩ : ∃ m, n = m + 1 := ⟨n - 1, by omega⟩
  obtain ⟨u, hu, now⟩ := runAt_of_lt run quiet room (k := 2 * m + 1) (by omega)
  obtain ⟨t, ht, done⟩ := now.step quiet room (by omega)
  have keeps := now.keeps.trans done.keeps
  have half : (2 * m + 1) / 2 = m := by omega
  have last : m + 1 - m = 1 := by omega
  have hcnt := now.cnt
  rw [halfAt_odd (by omega), half, last] at done
  rw [half] at hcnt
  refine ⟨t, runSteps_snoc hu ht, done.ends.fsm, ?_, done.ends.clk, ?_, keeps⟩
  · have up : t.cnt = u.cnt + 1 := done.ends.cnt
    omega
  · rw [done.ends.rst, openHalf_rst, now.rst]
    cases cont <;> rfl

end

/-- Settles O46: the run after each half-cycle (`runAt_of_lt`) and at its end (`run_completes`). -/
theorem runOfNCyclesIsTwoNSteps : Obligations.RunOfNCyclesIsTwoNSteps := by
  intro n cont s pos run noReentry room
  have quiet : Quiet s := .inl noReentry
  constructor
  · intro k before
    obtain ⟨u, hu, now⟩ := runAt_of_lt run quiet room before
    exact ⟨u, _, _, hu, now.fsm, now.rst, now.keeps.commands⟩
  · obtain ⟨t, ht, fsm, cnt, clk, rst, keeps⟩ := run_completes run quiet room pos
    exact ⟨t, ht, fsm, cnt, clk, rst, keeps.int, keeps.nmi, keeps.ht, keeps.dbg, keeps.sink, keeps.mark,
      keeps.commands⟩

/-- The step that takes ADVANCE n from the queue (R110, R140). -/
theorem step_advance {n : Nat} {s : State} {ws : List CmdWord} (max : n ≤ Config.advMax) (idle : s.fsm = .idle)
    (queue : s.env.commands = cmdWord 0x1 0 (BitVec.ofNat 32 n) :: ws) :
    step s = .next (acceptedEffect (.advance n) (popCommand s)) := by
  have decoded : decodeCommand (cmdWord 0x1 0 (BitVec.ofNat 32 n)) = .instr (.advance n) :=
    decodeOfEncodeIsTheInstruction (.advance n) (decide_eq_true max)
  rw [step_command (.inr idle) queue decoded, exec_advance]
  exact acceptIdle_idle (s := popCommand s) idle _

/-- Settles O47: the command's own step, then, unless n = 0, the run of n cycles (`run_completes`). -/
theorem advanceCountsItsCycles : Obligations.AdvanceCountsItsCycles := by
  intro n s ws max idle noReentry queue room
  have accepted := step_advance max idle queue
  have popped : (popCommand s).env.commands = ws := by simp [queue]
  by_cases zero : n = 0
  · subst zero
    exact ⟨popCommand s, runSteps_succ accepted 0, by simp, idle, fun pos => absurd rfl pos, popped⟩
  · rw [acceptedEffect, if_neg zero] at accepted
    obtain ⟨t, ht, fsm, cnt, clk, -, keeps⟩ :=
      run_completes (s := setFsm (.run n .hi .host) (popCommand s)) rfl (.inl noReentry) room (by omega)
    exact ⟨t, (runSteps_succ accepted _).trans ht, cnt, fsm, fun _ => clk, keeps.commands.trans popped⟩

end Sys2Proof.Machine
end

section
/-! Held strobes and the dispatches of one cycle (40_bus_cycle.md R156, R157; 70_reset_and_hazards.md R295,
R300). -/

namespace Sys2Proof.Machine

/-! A strobe that stays asserted. -/

/-- A pair of conditions on the read-strobe and the write-strobe: while the last half-cycle's strobes, in the
latches, are `latched`, a half-cycle whose strobes are `held` dispatches nothing, and it latches what keeps
this so. -/
structure Undispatched (held latched : Bool → Bool → Prop) : Prop where
  latches : ∀ rd wr, held rd wr → latched rd wr
  record  : ∀ half u, latched u.prevRd u.prevWr → held u.snap.rd u.snap.wr → recordOf half u = []
  data    : ∀ u, latched u.prevRd u.prevWr → held u.snap.rd u.snap.wr → dataAfter u = u.dout

/-- The read-strobe held (RD_HELD): no read edge, and no write while it is asserted (R147, R156). -/
theorem undispatched_read : Undispatched (fun rd _ => rd = true) (fun rd _ => rd = true) where
  latches _ _ held := held
  record half u latched held := by simp [recordOf, latched, held]
  data u latched held := by simp [dataAfter, latched, held]

/-- The write-strobe held with the read-strobe deasserted (WR_HELD): no write edge (R156). -/
theorem undispatched_write :
    Undispatched (fun rd wr => rd = false ∧ wr = true) (fun _ wr => wr = true) where
  latches _ _ held := held.2
  record half u latched held := by simp [recordOf, latched, held]
  data u latched held := by simp [dataAfter, held]

/-- The next `k` listed pins have their strobes `held`. -/
def HeldFor (held : Bool → Bool → Prop) (k : Nat) (ps : List Pins) : Prop :=
  k ≤ ps.length ∧ ∀ p ∈ ps.take k, held p.rd p.wr

theorem HeldFor.mono {held : Bool → Bool → Prop} {j k : Nat} {ps : List Pins} (h : HeldFor held k ps)
    (le : j ≤ k) : HeldFor held j ps :=
  ⟨le.trans h.1, fun p m => h.2 p (List.take_subset_take_left ps le m)⟩

theorem heldFor_succ {held : Bool → Bool → Prop} {k : Nat} {ps : List Pins} (h : HeldFor held (k + 1) ps) :
    ∃ p qs, ps = p :: qs ∧ held p.rd p.wr ∧ HeldFor held k qs := by
  obtain ⟨long, all⟩ := h
  cases ps with
  | nil => simp at long
  | cons p qs =>
    exact ⟨p, qs, rfl, all p (by simp), by simpa using long, fun q m => all q (by simp [m])⟩

/-- Everything a held strobe leaves of a step: HIST and DOUT, and either the core has stopped or the strobe
is still held, for one step less. -/
structure StandsStill (held latched : Bool → Bool → Prop) (k : Nat) (s t : State) : Prop where
  hist : t.hist = s.hist
  dout : t.dout = s.dout
  goes : t.fsm = .stopped ∨
    (t.fsm ≠ .off ∧ latched t.prevRd t.prevWr ∧ HeldFor held k t.env.pins)

/-- An accepted command but INIT leaves the latches (R39, R300), DOUT, and the pins to come. -/
theorem CommandDone.latches {s t : State} (done : CommandDone s t) :
    t.prevRd = s.prevRd ∧ t.prevWr = s.prevWr ∧ t.dout = s.dout ∧ t.env.pins = s.env.pins := by
  cases done <;> exact ⟨rfl, rfl, rfl, rfl⟩

theorem CommandDone.constructed {s t : State} (done : CommandDone s t) (h : s.fsm ≠ .off) : t.fsm ≠ .off := by
  cases done with
  | nothing | handler | debug | sink => exact h
  | advance | reset => simp

theorem fsmAfter_ne_off (rem : Nat) (half : Half) (cont : Cont) : fsmAfter rem half cont ≠ .off := by
  cases half with
  | hi => simp [fsmAfter]
  | lo => by_cases last : rem = 1 <;> simp [fsmAfter, last]

section
variable {held latched : Bool → Bool → Prop} (still : Undispatched held latched)
include still

/-- A step of a constructed core while the strobe is held, a command or a half-cycle. -/
theorem Undispatched.step {k : Nat} {s t : State} (constructed : s.fsm ≠ .off)
    (last : latched s.prevRd s.prevWr) (pins : HeldFor held (k + 1) s.env.pins) (hs : step s = .next t) :
    StandsStill held latched k s t := by
  have waiting := pins.mono (Nat.le_succ k)
  obtain ⟨p, qs, listed, now, rest⟩ := heldFor_succ pins
  have record (half : Half) : recordOf half (openHalf half s) = [] :=
    still.record half _ last (by simpa [nextPins_of_cons listed] using now)
  have data (half : Half) : dataAfter (openHalf half s) = s.dout :=
    still.data _ last (by simpa [nextPins_of_cons listed] using now)
  cases step_cases hs with
  | waits => exact ⟨rfl, rfl, .inr ⟨constructed, last, waiting⟩⟩
  | refuses why => exact ⟨rfl, rfl, .inl rfl⟩
  | constructs off => exact absurd off constructed
  | commands idle done =>
    obtain ⟨rd, wr, dout, queue⟩ := done.latches
    exact ⟨done.hist, dout, .inr ⟨done.constructed constructed, by rw [rd, wr]; exact last,
      by rw [queue]; exact waiting⟩⟩
  | completes rem half cont run done =>
    have ends := done.ends
    refine ⟨by rw [done.hist, record, List.append_nil]; rfl, done.dout.trans (data half), .inr ⟨?_, ?_, ?_⟩⟩
    · rw [ends.fsm]
      exact fsmAfter_ne_off rem half cont
    · rw [ends.prevRd, ends.prevWr]
      exact still.latches _ _ (by simpa [nextPins_of_cons listed] using now)
    · have left : t.env.pins = qs := by rw [ends.pins, openHalf_of_cons half listed]
      rw [left]
      exact rest
  | stops rem half cont run stopped =>
    have hist := stopped.hist
    have dout := stopped.dout
    rw [record, List.append_nil, or_self] at hist
    rw [data, openHalf_dout, or_self] at dout
    exact ⟨hist, dout, .inl stopped.fsm⟩

/-- R156 over any number of steps, whatever commands the host issues in between. -/
theorem Undispatched.runSteps {k : Nat} {s t : State} (constructed : s.fsm ≠ .off)
    (last : latched s.prevRd s.prevWr) (pins : HeldFor held k s.env.pins) (hs : runSteps k s = .next t) :
    t.hist = s.hist ∧ t.dout = s.dout := by
  induction k generalizing s with
  | zero => cases hs; exact ⟨rfl, rfl⟩
  | succ k ih =>
    obtain ⟨u, hu, hrest⟩ := runSteps_of_succ hs
    obtain ⟨hist, dout, stopped | ⟨constructed', last', pins'⟩⟩ := still.step constructed last pins hu
    · rw [runSteps_stopped stopped hrest]
      exact ⟨hist, dout⟩
    · obtain ⟨hist', dout'⟩ := ih constructed' last' pins' hrest
      exact ⟨hist'.trans hist, dout'.trans dout⟩

end

/-- Settles O50: the read-strobe's case of `Undispatched.runSteps`. -/
theorem heldReadStrobeIsDispatchedOnce : Obligations.HeldReadStrobeIsDispatchedOnce :=
  fun _ _ _ constructed last long all hs => undispatched_read.runSteps constructed last ⟨long, all⟩ hs

/-- Settles O51: the write-strobe's case of `Undispatched.runSteps`. -/
theorem heldWriteStrobeIsDispatchedOnce : Obligations.HeldWriteStrobeIsDispatchedOnce :=
  fun _ _ _ constructed last long all hs => undispatched_write.runSteps constructed last ⟨long, all⟩ hs

/-! The dispatches of one cycle. -/

/-- A record of a read of either space. -/
def isRead (r : HistRecord) : Bool := r.kind == .memrd || r.kind == .iord

/-- A record of a write of either space. -/
def isWrite (r : HistRecord) : Bool := r.kind == .memwr || r.kind == .iowr

/-- A half-cycle records nothing, or one read on a read edge, or one write on a write edge (R174, R197). -/
theorem recordOf_cases (half : Half) (u : State) :
    recordOf half u = [] ∨
    (∃ r, recordOf half u = [r] ∧ isRead r = true ∧ isWrite r = false ∧
      u.snap.rd = true ∧ u.prevRd = false) ∨
    (∃ r, recordOf half u = [r] ∧ isRead r = false ∧ isWrite r = true ∧
      u.snap.rd = false ∧ u.snap.wr = true ∧ u.prevWr = false) := by
  unfold recordOf
  split_ifs <;> simp [isRead, isWrite, *]

/-- A half-cycle with a step after it has completed: a stopped core has none (R33). -/
theorem runSteps_two_cases {s t : State} {rem : Nat} {half : Half} {cont : Cont}
    (run : s.fsm = .run rem half cont) (hs : runSteps 2 s = .next t) :
    ∃ m, HalfCycleDone rem half cont (openHalf half s) m ∧ step m = .next t := by
  obtain ⟨m, hm, hrest⟩ := runSteps_of_succ hs
  obtain ⟨t', ht, hend⟩ := runSteps_of_succ hrest
  cases hend
  rcases step_run_cases run hm with done | stopped
  · exact ⟨m, done, ht⟩
  · exact absurd ((step_stopped stopped.fsm).symm.trans ht) (noStep_ne_next m _)

/-- What the dispatches `l` of a cycle can be, its strobes `p` in the HIGH half and `q` in the LOW one: at most
one read and at most one write, and both only when the strobes change as R157 says. -/
structure CycleRecords (p q : Pins) (l : List HistRecord) : Prop where
  reads  : (l.filter isRead).length ≤ 1
  writes : (l.filter isWrite).length ≤ 1
  both   : l.length = 2 →
    (p.rd = true ∧ p.wr = false ∧ q.rd = false ∧ q.wr = true) ∨
    (p.rd = false ∧ p.wr = true ∧ q.rd = true)

theorem cycleRecords_of_length_le_one {p q : Pins} {l : List HistRecord} (short : l.length ≤ 1) :
    CycleRecords p q l where
  reads := (List.length_filter_le ..).trans short
  writes := (List.length_filter_le ..).trans short
  both two := by omega

theorem length_recordOf_le_one (half : Half) (u : State) : (recordOf half u).length ≤ 1 := by
  rcases recordOf_eq_nil_or_singleton half u with h | ⟨r, h⟩ <;> simp [h]

/-- The records of two half-cycles with the first one's strobes in the second one's latches: two reads, or two
writes, would need a strobe to have an edge in both (R157, R295). -/
theorem cycleRecords_append {p q : Pins} {u v : State} (rd : u.snap.rd = p.rd) (wr : u.snap.wr = p.wr)
    (rd' : v.snap.rd = q.rd) (wr' : v.snap.wr = q.wr) (prevRd : v.prevRd = p.rd) (prevWr : v.prevWr = p.wr) :
    CycleRecords p q (recordOf .hi u ++ recordOf .lo v) := by
  rcases recordOf_cases .hi u with h | ⟨r, h, isRd, notWr, rdHi, -⟩ | ⟨r, h, notRd, isWr, noRdHi, wrHi, -⟩
  · rw [h]
    exact cycleRecords_of_length_le_one (length_recordOf_le_one .lo v)
  · rcases recordOf_cases .lo v with
      h' | ⟨r', h', -, -, -, edge⟩ | ⟨r', h', notRd', isWr', noRdLo, wrLo, edge⟩
    · rw [h, h']
      exact cycleRecords_of_length_le_one le_rfl
    · simp [prevRd, ← rd, rdHi] at edge
    · rw [h, h']
      exact
        { reads := by simp [isRd, notRd'], writes := by simp [notWr, isWr']
          both := fun _ => .inl ⟨rd ▸ rdHi, prevWr ▸ edge, rd' ▸ noRdLo, wr' ▸ wrLo⟩ }
  · rcases recordOf_cases .lo v with
      h' | ⟨r', h', isRd', notWr', rdLo, -⟩ | ⟨r', h', -, -, -, -, edge⟩
    · rw [h, h']
      exact cycleRecords_of_length_le_one le_rfl
    · rw [h, h']
      exact
        { reads := by simp [notRd, isRd'], writes := by simp [isWr, notWr']
          both := fun _ => .inr ⟨rd ▸ noRdHi, wr ▸ wrHi, rd' ▸ rdLo⟩ }
    · simp [prevWr, ← wr, wrHi] at edge

/-- Settles O52: the HIGH half completes (`runSteps_two_cases`) and latches its strobes; the LOW half keeps
HIST or appends its record, and the records are those of `cycleRecords_append`. -/
theorem cycleDispatchesAtMostAReadAndAWrite : Obligations.CycleDispatchesAtMostAReadAndAWrite := by
  intro s t rem cont p q ps run listed hs
  obtain ⟨m, done, hm⟩ := runSteps_two_cases run hs
  have ends := done.ends
  have hi : nextPins s = p := nextPins_of_cons listed
  have left : m.env.pins = q :: ps := by rw [ends.pins, openHalf_of_cons .hi listed]
  have lo : nextPins m = q := nextPins_of_cons left
  have first : m.hist = s.hist ++ recordOf .hi (openHalf .hi s) := done.hist
  suffices records : ∃ l, t.hist = s.hist ++ l ∧ CycleRecords p q l by
    obtain ⟨l, hist, reads, writes, both⟩ := records
    exact ⟨l, hist, reads, writes, both⟩
  rcases step_run_hist ends.fsm hm with same | grown
  · exact ⟨_, same.trans first, cycleRecords_of_length_le_one (length_recordOf_le_one ..)⟩
  · rw [first, List.append_assoc] at grown
    exact ⟨_, grown, cycleRecords_append (by simp [hi]) (by simp [hi]) (by simp [lo]) (by simp [lo])
      (by simp [ends.prevRd, hi]) (by simp [ends.prevWr, hi])⟩

end Sys2Proof.Machine
end

section
/-! The nine classes (41_classification.md R175 to R189; 42_dispatch.md R193 to R198; 40_bus_cycle.md R156): the
class map on all keys, and the completed half-cycle of each class, read off from the six bits of its key. -/

namespace Sys2Proof.Machine

/-! The class map. -/

/-- Of the nine rows, one alone matches a key, and it is the one the decoder takes (R115, R189). -/
theorem matchingRows_eq (k : Key) :
    (classRows.filter fun r => k &&& r.mask == r.pattern).map (fun r => r.build k) = [decodeKey k] := by
  revert k
  decide

/-- Settles O4: one row for each key (`matchingRows_eq`), and the nine sizes by their count. -/
theorem everyKeyHasExactlyOneClass : Obligations.EveryKeyHasExactlyOneClass :=
  ⟨matchingRows_eq, by decide⟩

/-- Settles O5: `decodeKey_class6`, the decoder's agreement with the branches of R175. -/
theorem classOfTheKeyIsTheBranchStructure : Obligations.ClassOfTheKeyIsTheBranchStructure := decodeKey_class6

/-! The bits of a key (R102). -/

theorem bits_keyOf (rd prevRd wr prevWr mreq iorq : Bool) :
    keyRd (keyOf rd prevRd wr prevWr mreq iorq) = rd ∧
    keyPrevRd (keyOf rd prevRd wr prevWr mreq iorq) = prevRd ∧
    keyWr (keyOf rd prevRd wr prevWr mreq iorq) = wr ∧
    keyPrevWr (keyOf rd prevRd wr prevWr mreq iorq) = prevWr ∧
    keyMreq (keyOf rd prevRd wr prevWr mreq iorq) = mreq ∧
    keyIorq (keyOf rd prevRd wr prevWr mreq iorq) = iorq := by
  revert rd prevRd wr prevWr mreq iorq
  decide

/-- A state's classification key gives its six bits back. -/
theorem bits_of_class6 {s : State} {rd prevRd wr prevWr mreq iorq : Bool}
    (key : class6 s = keyOf rd prevRd wr prevWr mreq iorq) :
    s.snap.rd = rd ∧ s.prevRd = prevRd ∧ s.snap.wr = wr ∧ s.prevWr = prevWr ∧
      s.snap.mreq = mreq ∧ s.snap.iorq = iorq := by
  have bits := bits_keyOf s.snap.rd s.prevRd s.snap.wr s.prevWr s.snap.mreq s.snap.iorq
  rw [← class6, key] at bits
  simpa only [bits_keyOf, eq_comm] using bits

/-! The completed half-cycle of a class. -/

/-- What the core presents after a half-cycle: DOUT while its read-strobe is asserted, else nothing (R38, R150). -/
theorem HalfCycleEnds.presents {rem calls : Nat} {half : Half} {cont : Cont} {s t : State}
    (ends : HalfCycleEnds rem half cont calls s t) :
    dataDrive t = if s.snap.rd then some t.dout else none := by
  rw [dataDrive_eq, ends.dir]
  cases s.snap.rd <;> rfl

/-- Without re-entry and with room in the counter, the half-cycle of the key's class completes (R142). -/
theorem HalfCycleRuns.completes {s : State} {rem : Nat} {half : Half} {cont : Cont} {key : Key}
    (runs : HalfCycleRuns rem half cont key s) :
    ∃ t, exec (decodeKey key) s = .next t ∧ HalfCycleDone rem half cont s t := by
  obtain ⟨t, hexec, done | stopped⟩ := halfCycle_cases runs.fsm
  · exact ⟨t, by rw [← runs.key, decodeKey_class6, hexec], done⟩
  · exact absurd (.inl runs.noReentry) (stopped.not_quiet runs.room)

/-- A half-cycle with no record leaves DOUT as it was (R193, R194, R197). -/
theorem dataAfter_of_recordOf_nil {half : Half} {s : State} (record : recordOf half s = []) :
    dataAfter s = s.dout := by
  unfold recordOf at record
  unfold dataAfter
  split_ifs at record ⊢ <;> rfl

section
variable {s : State} {rem : Nat} {half : Half} {cont : Cont} {rd prevRd wr prevWr mreq iorq : Bool} {i : Instr}

/-- What the half-cycle of a class leaves, by the bits of its key: its calls, its data, its record and its
snapshot are those the class selects (R180 to R188), and the read-strobe says whether DOUT is driven. -/
theorem HalfCycleRuns.leaves {calls : Nat} {v : Byte} {l : List HistRecord} {n : Snap}
    (runs : HalfCycleRuns rem half cont (keyOf rd prevRd wr prevWr mreq iorq) s)
    (hclass : decodeKey (keyOf rd prevRd wr prevWr mreq iorq) = i)
    (called : responderCalls half s = calls) (data : dataAfter s = v) (record : recordOf half s = l)
    (snap : snapAfter s = n) :
    ∃ t, exec i s = .next t ∧ HalfCycleEnds rem half cont calls s t ∧
      t.dout = v ∧ t.hist = s.hist ++ l ∧ t.snap = n ∧
      dataDrive t = (if rd then some t.dout else none) ∧ t.prevRd = rd ∧ t.prevWr = wr := by
  obtain ⟨hrd, -, hwr, -⟩ := bits_of_class6 runs.key
  obtain ⟨t, hexec, done⟩ := runs.completes
  have ends := done.ends
  subst hclass called data record snap
  exact ⟨t, hexec, ends, done.dout, done.hist, done.snap, hrd ▸ ends.presents,
    ends.prevRd.trans hrd, ends.prevWr.trans hwr⟩

/-- With no record, the half-cycle calls no responder and keeps DOUT and HIST (R182, R183, R186 to R188). -/
theorem HalfCycleRuns.leaves_undispatched {n : Snap}
    (runs : HalfCycleRuns rem half cont (keyOf rd prevRd wr prevWr mreq iorq) s)
    (hclass : decodeKey (keyOf rd prevRd wr prevWr mreq iorq) = i)
    (record : recordOf half s = []) (snap : snapAfter s = n) :
    ∃ t, exec i s = .next t ∧ HalfCycleEnds rem half cont 0 s t ∧
      t.dout = s.dout ∧ t.hist = s.hist ∧ t.snap = n ∧
      dataDrive t = (if rd then some s.dout else none) ∧ t.prevRd = rd ∧ t.prevWr = wr := by
  obtain ⟨t, hexec, ends, dout, hist, snap', drive, latches⟩ :=
    runs.leaves hclass (responderCalls_nil record) (dataAfter_of_recordOf_nil record) record snap
  rw [List.append_nil] at hist
  exact ⟨t, hexec, ends, dout, hist, snap', dout ▸ drive, latches⟩

end

/-- Only a write edge changes SNAP: with the read-strobe asserted there is none (R172, R174). -/
theorem snapAfter_of_rd {s : State} (rd : s.snap.rd = true) : snapAfter s = s.snap := by
  simp [snapAfter, writeEdge, rd]

/-- On a write edge SNAP.D is the CPU's data (R172). -/
theorem snapAfter_of_edge {s : State} (rd : s.snap.rd = false) (wr : s.snap.wr = true)
    (prevWr : s.prevWr = false) : snapAfter s = { s.snap with d := s.env.pinsNow.d } := by
  simp [snapAfter, writeEdge, rd, wr, prevWr]

/-! The read branch. -/

/-- Settles O21: `HalfCycleRuns.leaves` with the MEMRD record of a read edge with memory-request. -/
theorem memReadDispatchesTheRead : Obligations.MemReadDispatchesTheRead := by
  intro s wr prevWr iorq rem half cont runs
  obtain ⟨rd, prevRd, -, -, mreq, -⟩ := bits_of_class6 runs.key
  have record : recordOf half s = [⟨.memrd, .mem s.snap.a, (readOutcome .memrd (.mem s.snap.a) s).1,
      (readOutcome .memrd (.mem s.snap.a) s).2, s.cnt, half⟩] := by
    simp [recordOf, rd, prevRd, mreq]
  exact runs.leaves (decodeKey_keyOf ..) (responderCalls_read record)
    (by simp [dataAfter, rd, prevRd, mreq]) record (snapAfter_of_rd rd)

/-- Settles O22: `HalfCycleRuns.leaves` with the IORD record of a read edge with I/O-request alone. -/
theorem ioReadDispatchesTheRead : Obligations.IoReadDispatchesTheRead := by
  intro s wr prevWr rem half cont runs
  obtain ⟨rd, prevRd, -, -, mreq, iorq⟩ := bits_of_class6 runs.key
  have record : recordOf half s = [⟨.iord, .port (portOf s.snap.a),
      (readOutcome .iord (.port (portOf s.snap.a)) s).1,
      (readOutcome .iord (.port (portOf s.snap.a)) s).2, s.cnt, half⟩] := by
    simp [recordOf, rd, prevRd, mreq, iorq]
  exact runs.leaves (decodeKey_keyOf ..) (responderCalls_read record)
    (by simp [dataAfter, portOf, rd, prevRd, mreq, iorq]) record (snapAfter_of_rd rd)

/-- Settles O23: neither a read edge with no request nor a held read-strobe has a record
(`HalfCycleRuns.leaves_undispatched`). -/
theorem undispatchedReadsDriveTheOldData : Obligations.UndispatchedReadsDriveTheOldData := by
  intro s wr prevWr mreq iorq rem half cont
  refine ⟨fun runs => ?_, fun runs => ?_⟩
  · obtain ⟨rd, -, -, -, noMreq, noIorq⟩ := bits_of_class6 runs.key
    exact runs.leaves_undispatched (decodeKey_keyOf ..) (by simp [recordOf, rd, noMreq, noIorq])
      (snapAfter_of_rd rd)
  · obtain ⟨rd, held, -⟩ := bits_of_class6 runs.key
    exact runs.leaves_undispatched (decodeKey_keyOf ..) (by simp [recordOf, rd, held]) (snapAfter_of_rd rd)

/-! The write branch, and no strobe. -/

/-- Settles O24: `HalfCycleRuns.leaves` with the MEMWR record of a write edge with memory-request. -/
theorem memWriteDispatchesTheWrite : Obligations.MemWriteDispatchesTheWrite := by
  intro s prevRd iorq rem half cont runs
  obtain ⟨rd, -, wr, prevWr, mreq, -⟩ := bits_of_class6 runs.key
  have record : recordOf half s =
      [⟨.memwr, .mem s.snap.a, s.env.pinsNow.d, writeServed .memwr s, s.cnt, half⟩] := by
    simp [recordOf, rd, wr, prevWr, mreq]
  exact runs.leaves (decodeKey_keyOf ..) (responderCalls_write record) (by simp [dataAfter, rd]) record
    (snapAfter_of_edge rd wr prevWr)

/-- Settles O25: `HalfCycleRuns.leaves` with the IOWR record of a write edge with I/O-request alone. -/
theorem ioWriteDispatchesTheWrite : Obligations.IoWriteDispatchesTheWrite := by
  intro s prevRd rem half cont runs
  obtain ⟨rd, -, wr, prevWr, mreq, iorq⟩ := bits_of_class6 runs.key
  have record : recordOf half s =
      [⟨.iowr, .port (portOf s.snap.a), s.env.pinsNow.d, writeServed .iowr s, s.cnt, half⟩] := by
    simp [recordOf, rd, wr, prevWr, mreq, iorq]
  exact runs.leaves (decodeKey_keyOf ..) (responderCalls_write record) (by simp [dataAfter, rd]) record
    (snapAfter_of_edge rd wr prevWr)

/-- Settles O26: neither class has a record (`HalfCycleRuns.leaves_undispatched`), and only WR_NONE has a
write edge, which reads the data pins again. -/
theorem undispatchedWritesReachNoResponder : Obligations.UndispatchedWritesReachNoResponder := by
  intro s prevRd mreq iorq rem half cont
  refine ⟨fun runs => ?_, fun runs => ?_⟩
  · obtain ⟨rd, -, wr, prevWr, noMreq, noIorq⟩ := bits_of_class6 runs.key
    exact runs.leaves_undispatched (decodeKey_keyOf ..) (by simp [recordOf, rd, noMreq, noIorq])
      (snapAfter_of_edge rd wr prevWr)
  · obtain ⟨rd, -, -, held, -⟩ := bits_of_class6 runs.key
    exact runs.leaves_undispatched (decodeKey_keyOf ..) (by simp [recordOf, rd, held])
      (by simp [snapAfter, writeEdge, held])

/-- Settles O27: with no strobe there is neither a record nor a write edge
(`HalfCycleRuns.leaves_undispatched`). -/
theorem noStrobeDispatchesNothing : Obligations.NoStrobeDispatchesNothing := by
  intro s prevRd prevWr mreq iorq rem half cont runs
  obtain ⟨rd, -, noWr, -⟩ := bits_of_class6 runs.key
  exact runs.leaves_undispatched (decodeKey_keyOf ..) (by simp [recordOf, rd, noWr])
    (by simp [snapAfter, writeEdge, noWr])

end Sys2Proof.Machine
end

section
/-! The handler table and the dispatch through it (42_dispatch.md R197 to R202): what SETH and CLRH write, the
record of a half-cycle, and the bus without a read responder. -/

namespace Sys2Proof.Machine

/-! The commands that write a slot. -/

@[simp] theorem slotOf_withSlot_same (t : HandlerTable) (k : Kind) (v : Slot) :
    slotOf (withSlot t k v) k = v := by
  cases k <;> rfl

theorem slotOf_withSlot_other (t : HandlerTable) {j k : Kind} (v : Slot) (other : j ≠ k) :
    slotOf (withSlot t k v) j = slotOf t j := by
  cases k <;> cases j <;> simp [slotOf, withSlot] at other ⊢

/-- A command that writes one slot, in each state of FSM (R200, R201, R264). -/
theorem acceptIdle_withSlot (k : Kind) (v : Slot) (s : State) :
    let outcome := acceptIdle (fun s => { s with ht := withSlot s.ht k v }) s
    (s.fsm = .idle → ∃ ht : HandlerTable, outcome = .next { s with ht := ht } ∧
      slotOf ht k = v ∧ ∀ j, j ≠ k → slotOf ht j = slotOf s.ht j) ∧
    (s.fsm = .off → outcome = .next { s with fsm := .stopped, mark := .refused .notConstructed }) ∧
    (∀ rem half cont, s.fsm = .run rem half cont →
      outcome = .next { s with fsm := .stopped, mark := .refused .busy }) ∧
    (s.fsm = .stopped → ∀ t, outcome ≠ .next t) := by
  refine ⟨fun idle => ?_, fun off => acceptIdle_off off _, fun _ _ _ run => acceptIdle_run run _,
    fun stopped t => ?_⟩
  · exact ⟨withSlot s.ht k v, acceptIdle_idle idle _, slotOf_withSlot_same .., fun _ =>
      slotOf_withSlot_other s.ht v⟩
  · rw [acceptIdle_stopped stopped]
    exact noStep_ne_next s t

/-- A word of SETH or CLRH whose selector is no kind's code is rejected (R113, R120). -/
theorem reserved_of_selector {op sel : BitVec 4} (arg : BitVec 32) (handler : op = 0x3 ∨ op = 0x4)
    (noKind : 4 ≤ sel.toNat) : ∃ why, decodeCommand (cmdWord op sel arg) = .reserved why := by
  refine (decodeCommand_reserved_iff _).2 (.inr (.inl ?_))
  rw [cmdOp_cmdWord, cmdSel_cmdWord]
  exact ⟨handler.imp (congrArg BitVec.toNat) (congrArg BitVec.toNat), noKind⟩

/-- A word of CLRH with an operand is rejected (R120). -/
theorem reserved_of_clrh_operand (sel : BitVec 4) {arg : BitVec 32} (operand : arg ≠ 0) :
    ∃ why, decodeCommand (cmdWord 0x4 sel arg) = .reserved why := by
  refine (decodeCommand_reserved_iff _).2 (.inr (.inr (.inr (.inl ?_))))
  rw [cmdOp_cmdWord, cmdArg_cmdWord]
  exact ⟨by decide, fun zero => operand (BitVec.eq_of_toNat_eq zero)⟩

/-- Settles O17: SETH writes its slot with an installed responder (`acceptIdle_withSlot`); its words decode by
the round trip of the encoding, and those of no kind are rejected (`reserved_of_selector`). -/
theorem sethInstallsTheResponder : Obligations.SethInstallsTheResponder :=
  ⟨fun k h => decodeOfEncodeIsTheInstruction (.seth k h) rfl,
    fun _ h noKind => reserved_of_selector h (.inl rfl) noKind,
    fun k h s => acceptIdle_withSlot k ⟨true, h⟩ s⟩

/-- Settles O18: CLRH writes its slot with the empty one (`acceptIdle_withSlot`); a selector of no kind and an
operand are each rejected. -/
theorem clrhRemovesTheResponder : Obligations.ClrhRemovesTheResponder :=
  ⟨fun k => decodeOfEncodeIsTheInstruction (.clrh k) rfl,
    fun sel arg bad => bad.elim (reserved_of_selector arg (.inr rfl)) (reserved_of_clrh_operand sel),
    fun k s => acceptIdle_withSlot k emptySlot s⟩

/-! The record of a half-cycle. -/

/-- With no re-entry a half-cycle appends its record, whether it completes or the counter's overflow stops the
core after the dispatch (R152, R197). -/
theorem halfCycle_hist {s : State} {rem : Nat} {half : Half} {cont : Cont} (run : s.fsm = .run rem half cont)
    (noReentry : NoReentry s) :
    ∃ t, exec (decodeKey (class6 s)) s = .next t ∧ t.hist = s.hist ++ recordOf half s := by
  rw [decodeKey_class6]
  obtain ⟨t, hexec, done | stopped⟩ := halfCycle_cases run
  · exact ⟨t, hexec, done.hist⟩
  · obtain ⟨-, -, -, -, -, hist, -⟩ := stopped.overflow (.inl noReentry)
    exact ⟨t, hexec, hist⟩

/-- Settles O28: the half-cycle appends `recordOf` (`halfCycle_hist`), which is at most one record
(`length_recordOf_le_one`). -/
theorem theClassSelectsTheSlot : Obligations.TheClassSelectsTheSlot := by
  intro s rem half cont run noReentry
  obtain ⟨t, hexec, hist⟩ := halfCycle_hist run noReentry
  exact ⟨t, hexec, hist, length_recordOf_le_one half s⟩

/-! The bus without a read responder (R198, R202). -/

/-- No responder is installed for MEMRD or IORD. -/
def NoReadResponder (s : State) : Prop := s.ht.memrd.inst = false ∧ s.ht.iord.inst = false

/-- A read of an empty slot yields the default (R198). -/
theorem readOutcome_of_empty {s : State} {k : Kind} (empty : (slotOf s.ht k).inst = false) (loc : Location) :
    readOutcome k loc s = (0x00, .byDefault) := by
  simp [readOutcome, empty]

/-- With no read responder a half-cycle leaves 0x00 in DOUT where it was 0x00: it dispatches a read to an empty
slot, or it keeps DOUT. -/
theorem dataAfter_eq_zero {s : State} (noReader : NoReadResponder s) (zero : s.dout = 0x00) :
    dataAfter s = 0x00 := by
  obtain ⟨memrd, iord⟩ := noReader
  unfold dataAfter
  rw [readOutcome_of_empty (k := .memrd) memrd, readOutcome_of_empty (k := .iord) iord, zero]
  split_ifs <;> rfl

/-- With no read responder a step keeps DOUT at 0x00, a command or a half-cycle, whatever the outside parties
do: only INIT, with 0x00 (R37), and a half-cycle write it. -/
theorem step_dout_eq_zero {s t : State} (noReader : NoReadResponder s) (zero : s.dout = 0x00)
    (hs : step s = .next t) : t.dout = 0x00 := by
  have data (half : Half) : dataAfter (openHalf half s) = 0x00 := dataAfter_eq_zero noReader zero
  cases step_cases hs with
  | waits => exact zero
  | refuses => exact zero
  | constructs => rfl
  | commands _ done =>
    obtain ⟨-, -, dout, -⟩ := done.latches
    exact dout.trans zero
  | completes _ half _ _ done => exact done.dout.trans (data half)
  | stops _ half _ _ stopped =>
    exact stopped.dout.elim (fun kept => kept.trans zero) fun written => written.trans (data half)

/-- `step_dout_eq_zero` over a run of steps, before each of which no read responder is installed. -/
theorem runSteps_dout_eq_zero {k : Nat} {s t : State} (zero : s.dout = 0x00)
    (noReader : ∀ j u, j < k → runSteps j s = .next u → NoReadResponder u) (hs : runSteps k s = .next t) :
    t.dout = 0x00 := by
  induction k generalizing s with
  | zero => cases hs; exact zero
  | succ k ih =>
    obtain ⟨u, hu, hrest⟩ := runSteps_of_succ hs
    refine ih (step_dout_eq_zero (noReader 0 s k.succ_pos rfl) zero hu) (fun j v before hv => ?_) hrest
    exact noReader (j + 1) v (Nat.succ_lt_succ before) ((runSteps_succ hu j).trans hv)

/-- What the core presents is DOUT or nothing (R38). -/
theorem dataDrive_eq_none_or (s : State) : dataDrive s = none ∨ dataDrive s = some s.dout := by
  rw [dataDrive_eq]
  split
  · exact .inr rfl
  · exact .inl rfl

/-- Settles O43: DOUT stays 0x00 over the run (`runSteps_dout_eq_zero`), and it is all the core can drive. -/
theorem noReadResponderMeansZeroOnTheBus : Obligations.NoReadResponderMeansZeroOnTheBus := by
  intro k s t zero noReader hs
  have dout : t.dout = 0x00 := runSteps_dout_eq_zero zero (fun j u before => noReader j u before.le) hs
  exact ⟨dout, dout ▸ dataDrive_eq_none_or t⟩

end Sys2Proof.Machine
end

section
/-! The reset sequencer (43_reset_sequencer.md): what RESET and INIT start, and how the reset run ends. -/

namespace Sys2Proof.Machine

/-! The two commands. -/

/-- RESET is accepted in IDLE only, and starts the reset run there (R220, R264). -/
theorem exec_reset (s : State) : exec .reset s = acceptIdle startReset s := rfl

/-- INIT is accepted in OFF only, and starts the reset run there from the idle step (R225, R264). -/
theorem exec_init (s : State) : exec .init s = acceptOff (fun s => startReset (idleStep s)) s := rfl

/-- Settles O15: RESET's acceptance (`exec_reset`) in each state of FSM. -/
theorem resetStartsTheResetRun : Obligations.ResetStartsTheResetRun := by
  intro s
  rw [exec_reset]
  refine ⟨fun idle => acceptIdle_idle idle _, fun off => acceptIdle_off off _,
    fun _ _ _ run => acceptIdle_run run _, fun stopped t => ?_⟩
  rw [acceptIdle_stopped stopped]
  exact noStep_ne_next s t

/-- Settles O16: INIT's acceptance (`exec_init`) in each state of FSM. -/
theorem initConstructsTheCore : Obligations.InitConstructsTheCore := by
  intro s
  rw [exec_init]
  refine ⟨fun off => acceptOff_off off _, fun idle => acceptOff_idle idle _,
    fun _ _ _ run => acceptOff_run run _, fun stopped t => ?_⟩
  rw [acceptOff_stopped stopped]
  exact noStep_ne_next s t

/-- The step that takes RESET from the queue in IDLE (R110, R220). -/
theorem step_reset {s : State} {ws : List CmdWord} (idle : s.fsm = .idle)
    (queue : s.env.commands = 0x2000000000#40 :: ws) : step s = .next (startReset (popCommand s)) := by
  have decoded : decodeCommand 0x2000000000#40 = .instr .reset := by decide
  rw [step_command (.inr idle) queue decoded, exec_reset]
  exact acceptIdle_idle (s := popCommand s) idle _

/-- The step that takes INIT from the queue in OFF (R110, R225). -/
theorem step_init {s : State} {ws : List CmdWord} (off : s.fsm = .off)
    (queue : s.env.commands = 0x0000000000#40 :: ws) :
    step s = .next (startReset (idleStep (popCommand s))) := by
  have decoded : decodeCommand 0x0000000000#40 = .instr .init := by decide
  rw [step_command (.inl off) queue decoded, exec_init]
  exact acceptOff_off (s := popCommand s) off _

/-! What a completed half-cycle leaves, beside `HalfCycleEnds`. -/

@[simp] theorem snapAfter_rst (s : State) : (snapAfter s).rst = s.snap.rst := by
  unfold snapAfter; split <;> rfl

/-- The snapshot a half-cycle leaves has the reset line at its level before the reset tail (R171, R221). -/
theorem HalfCycleDone.snap_rst {s t : State} {rem : Nat} {half : Half} {cont : Cont}
    (done : HalfCycleDone rem half cont (openHalf half s) t) : t.snap.rst = s.rst := by
  rw [done.snap, snapAfter_rst, openHalf_snap_rst]

/-- The latches and the direction are those of the snapshot a half-cycle leaves (R150, R178). -/
theorem HalfCycleDone.latches {u t : State} {rem : Nat} {half : Half} {cont : Cont}
    (done : HalfCycleDone rem half cont u t) :
    t.prevRd = t.snap.rd ∧ t.prevWr = t.snap.wr ∧ t.dir = if t.snap.rd then .output else .input := by
  rw [done.snap, snapAfter_rd, snapAfter_wr]
  exact ⟨done.ends.prevRd, done.ends.prevWr, done.ends.dir⟩

/-- Nobody is attached to the core, 0x00 is in DOUT and nothing has been emitted: so INIT leaves it. -/
structure Unattended (s : State) : Prop where
  slots : ∀ k, (slotOf s.ht k).inst = false
  sink  : s.sink.inst = false
  dout  : s.dout = 0x00
  trace : s.trace = []

/-- The slots that the idle step writes are all empty (R226). -/
theorem slotOf_emptyTable (k : Kind) : slotOf emptyTable k = emptySlot := by cases k <;> rfl

theorem unattended_startReset_idleStep (s : State) : Unattended (startReset (idleStep s)) where
  slots k := congrArg Slot.inst (slotOf_emptyTable k)
  sink := rfl
  dout := rfl
  trace := rfl

theorem Unattended.quiet {s : State} (h : Unattended s) : Quiet s := .inr ⟨h.slots, h.sink⟩

/-- A half-cycle of an unattended core can read only 0x00 and emits nothing (R198, R240). -/
theorem HalfCycleDone.unattended {s t : State} {rem : Nat} {half : Half} {cont : Cont}
    (done : HalfCycleDone rem half cont (openHalf half s) t) (h : Unattended s) : Unattended t := by
  have noSink : t.sink.inst = false := done.ends.sink ▸ h.sink
  have noReader : NoReadResponder (openHalf half s) := ⟨h.slots .memrd, h.slots .iord⟩
  exact
    { slots := done.ends.ht ▸ h.slots
      sink := noSink
      dout := done.dout.trans (dataAfter_eq_zero noReader h.dout)
      trace := by
        rw [done.ends.trace, linesAtEnd_noSink _ noSink, List.append_nil, ite_self]
        exact h.trace }

/-! Over a run. -/

section
variable {n : Nat} {cont : Cont} {s : State} (run : s.fsm = .run n .hi cont) (quiet : Quiet s)
  (room : s.cnt + n ≤ s.params.cntMax)
include run quiet room

/-- Every half-cycle of a quiet run completes, from where the run stands before it (R154, R158). -/
theorem run_half_completes {k : Nat} (before : k < 2 * n) :
    ∃ u t, runSteps k s = .next u ∧ RunAt n cont k s u ∧ runSteps (k + 1) s = .next t ∧
      HalfCycleDone (n - k / 2) (halfAt k) cont (openHalf (halfAt k) u) t := by
  obtain ⟨u, hu, now⟩ := runAt_of_lt run quiet room before
  obtain ⟨t, ht, done⟩ := now.step quiet room before
  exact ⟨u, t, hu, now, runSteps_snoc hu ht, done⟩

/-- What holds at a run's start and is kept by every completed half-cycle holds throughout the run. -/
theorem run_induction {P : State → Prop} (start : P s)
    (kept : ∀ {rem half u t}, HalfCycleDone rem half cont (openHalf half u) t → P u → P t)
    {k : Nat} (within : k ≤ 2 * n) {t : State} (hs : runSteps k s = .next t) : P t := by
  induction k generalizing t with
  | zero => cases hs; exact start
  | succ k ih =>
    obtain ⟨u, t', hu, -, ht, done⟩ := run_half_completes run quiet room within
    cases ht.symm.trans hs
    exact kept done (ih (by omega) hu)

/-- The latches and the direction at the end of a run are those of the last snapshot. -/
theorem run_latches (pos : 1 ≤ n) {t : State} (hs : runSteps (2 * n) s = .next t) :
    t.prevRd = t.snap.rd ∧ t.prevWr = t.snap.wr ∧ t.dir = if t.snap.rd then .output else .input := by
  obtain ⟨k, hk⟩ : ∃ k, 2 * n = k + 1 := ⟨2 * n - 1, by omega⟩
  obtain ⟨_, t', -, -, ht, done⟩ := run_half_completes run quiet room (k := k) (by omega)
  rw [hk] at hs
  cases ht.symm.trans hs
  exact done.latches

end

/-- Settles O48: the command's own step (`step_reset`), then the reset run; a half-cycle's snapshot has RST as
it stands before the tail (`HalfCycleDone.snap_rst`), and the tail releases it (`run_completes`). -/
theorem resetCompletes : Obligations.ResetCompletes := by
  intro s ws ⟨minimum, _, _⟩ idle noReentry queue room
  have accepted := step_reset idle queue
  have run := startReset_fsm (popCommand s)
  have quiet : Quiet (startReset (popCommand s)) := .inl noReentry
  constructor
  · intro k first last
    obtain ⟨j, rfl⟩ : ∃ j, k = j + 1 := ⟨k - 1, by omega⟩
    obtain ⟨_, t, -, now, ht, done⟩ := run_half_completes run quiet room last
    exact ⟨t, (runSteps_succ accepted _).trans ht, done.snap_rst.trans now.rst⟩
  · have pos : 1 ≤ s.params.resetCycles := by omega
    obtain ⟨t, ht, fsm, cnt, clk, rst, keeps⟩ := run_completes run quiet room pos
    exact ⟨t, (runSteps_succ accepted _).trans ht, rst, keeps.int, keeps.nmi, cnt, clk, fsm, keeps.ht,
      keeps.dbg, keeps.sink⟩

/-- Settles O49: the command's own step (`step_init`), then the reset run of an unattended core, which calls no
one; its last half-cycle leaves the latches and the direction (`HalfCycleDone.latches`). -/
theorem initCompletes : Obligations.InitCompletes := by
  intro s ws ⟨minimum, _, _⟩ off queue room
  have accepted := step_init off queue
  have alone := unattended_startReset_idleStep (popCommand s)
  have run := startReset_fsm (idleStep (popCommand s))
  have roomInit : Config.cntInit + s.params.resetCycles ≤ s.params.cntMax := by
    unfold Config.cntInit; omega
  have pos : 1 ≤ s.params.resetCycles := by omega
  obtain ⟨t, ht, fsm, cnt, clk, rst, keeps⟩ := run_completes run alone.quiet roomInit pos
  have count : t.cnt = (s.params.resetCycles : Int) - 1 := by
    rw [cnt, startReset_cnt, idleStep_cnt, Config.cntInit]
    exact neg_add_eq_sub _ _
  have slots : ∀ k, slotOf t.ht k = emptySlot := fun k => keeps.ht ▸ slotOf_emptyTable k
  have still : Unattended t := run_induction run alone.quiet roomInit alone HalfCycleDone.unattended le_rfl ht
  have latches := run_latches run alone.quiet roomInit pos ht
  exact ⟨t, (runSteps_succ accepted _).trans ht, fsm, clk, rst, keeps.int, keeps.nmi, count, slots, keeps.dbg,
    keeps.sink, still.dout, still.trace, keeps.mark, latches⟩

end Sys2Proof.Machine
end

section
/-! The commands that write DBG and SINK (44_instrumentation.md R245 to R247), and what a host command is in each
state of FSM (60_exceptions.md R261, R264). -/

namespace Sys2Proof.Machine

/-- Every command but INIT is accepted in IDLE, with its effect (R264). -/
theorem exec_of_idle {i : Instr} (hi : i.isCommand = true) (notInit : i ≠ .init) {s : State}
    (idle : s.fsm = .idle) : exec i s = .next (acceptedEffect i s) := by
  rw [exec_command hi, if_neg notInit, acceptIdle_idle idle]

/-- Every command but INIT is refused in OFF and in RUN, and has no step in STOPPED (R261, R262, R264). -/
theorem exec_outside_idle {i : Instr} (hi : i.isCommand = true) (notInit : i ≠ .init) (s : State) :
    (s.fsm = .off → exec i s = .next { s with fsm := .stopped, mark := .refused .notConstructed }) ∧
    (∀ rem half cont, s.fsm = .run rem half cont →
      exec i s = .next { s with fsm := .stopped, mark := .refused .busy }) ∧
    (s.fsm = .stopped → ∀ t, exec i s ≠ .next t) := by
  rw [exec_command hi, if_neg notInit]
  refine ⟨fun off => acceptIdle_off off _, fun _ _ _ run => acceptIdle_run run _, fun stopped t => ?_⟩
  rw [acceptIdle_stopped stopped]
  exact noStep_ne_next s t

/-- A word of SETDBG is rejected for its selector or for an operand with a bit above 3:0 (R120). -/
theorem setdbg_reserved_iff (sel : BitVec 4) (arg : BitVec 32) :
    (∃ why, decodeCommand (cmdWord 0x5 sel arg) = .reserved why) ↔ sel ≠ 0 ∨ 16 ≤ arg.toNat := by
  rw [reserved_iff_noRow, ne_eq, ← BitVec.toNat_inj]
  simp [imp_iff_not_or]

/-- A word of SETSINK is rejected for its selector alone (R120). -/
theorem setsink_reserved_iff (sel : BitVec 4) (h : Handle) :
    (∃ why, decodeCommand (cmdWord 0x6 sel h) = .reserved why) ↔ sel ≠ 0 := by
  rw [reserved_iff_noRow, ne_eq, ← BitVec.toNat_inj]
  simp

/-- A word of CLRSINK is rejected for its selector or for an operand (R120). -/
theorem clrsink_reserved_iff (sel : BitVec 4) (arg : BitVec 32) :
    (∃ why, decodeCommand (cmdWord 0x7 sel arg) = .reserved why) ↔ sel ≠ 0 ∨ arg ≠ 0 := by
  rw [reserved_iff_noRow, ne_eq, ne_eq, ← BitVec.toNat_inj, ← BitVec.toNat_inj]
  simp [imp_iff_not_or]

/-- Settles O19: the words by the round trip of the encoding and by R120 (`setdbg_reserved_iff` and its siblings),
the commands in IDLE by `exec_of_idle` and outside it by `exec_outside_idle`. -/
theorem debugCommandsWriteTheirRegister : Obligations.DebugCommandsWriteTheirRegister := by
  refine ⟨⟨?_, ?_, ?_, ?_, ?_, ?_⟩, fun m h s => ⟨fun idle => ?_, fun i debug => ?_⟩⟩
  · exact fun m => decodeOfEncodeIsTheInstruction (.setdbg m) rfl
  · exact fun sel arg => (setdbg_reserved_iff sel arg).2
  · exact fun h => decodeOfEncodeIsTheInstruction (.setsink h) rfl
  · exact fun sel h => (setsink_reserved_iff sel h).2
  · exact decodeOfEncodeIsTheInstruction .clrsink rfl
  · exact fun sel arg => (clrsink_reserved_iff sel arg).2
  · exact ⟨exec_of_idle (i := .setdbg m) rfl nofun idle, exec_of_idle (i := .setsink h) rfl nofun idle,
      exec_of_idle (i := .clrsink) rfl nofun idle⟩
  · rcases debug with rfl | rfl | rfl
    · exact exec_outside_idle (i := .setdbg m) rfl nofun s
    · exact exec_outside_idle (i := .setsink h) rfl nofun s
    · exact exec_outside_idle (i := .clrsink) rfl nofun s

end Sys2Proof.Machine
end

section
/-! The emission filter (44_instrumentation.md R240 to R244, R248): which lines a completed half-cycle hands to the
sink, and the I/O trace over two cycles. -/

namespace Sys2Proof.Machine

/-! The lines at the end of a cycle. -/

/-- With a sink the lines are the model's, with RST at the given level (R242, R243). -/
theorem linesAtEnd_of_sink (rst : Bool) {t : State} (sink : t.sink.inst = true) :
    linesAtEnd rst t = (cycleLines { t with rst := rst }).map fun l => (t.sink.handle, l) :=
  (cycleLines_eq { t with rst := rst } sink).symm

/-- A cycle that does not hit emits nothing, VERBOSE or not (R240, R244). -/
theorem linesAtEnd_of_noHit (rst : Bool) {t : State} (sink : t.sink.inst = true)
    (noHit : emitHit t.dbg t.snap = false) : linesAtEnd rst t = [] := by
  simp [linesAtEnd_of_sink rst sink, cycleLines, noHit]

/-- A cycle that hits emits its SUMMARY, and with VERBOSE the three pin lines after it (R242 to R244). -/
theorem linesAtEnd_of_hit (rst : Bool) {t : State} (sink : t.sink.inst = true)
    (hit : emitHit t.dbg t.snap = true) :
    linesAtEnd rst t = (t.sink.handle, .summary t.cnt t.snap) ::
      (if dbgVerbose t.dbg then
        [(t.sink.handle, .pinIn t.snap), (t.sink.handle, .pinOut t.clk rst t.int t.nmi t.dout),
          (t.sink.handle, .pinDir t.dir)]
      else []) := by
  rw [linesAtEnd_of_sink rst sink, cycleLines, if_pos hit]
  cases dbgVerbose t.dbg <;> rfl

/-! The lines of one completed half-cycle. -/

@[simp] theorem snapAfter_mreq (s : State) : (snapAfter s).mreq = s.snap.mreq := by
  unfold snapAfter; split <;> rfl

@[simp] theorem snapAfter_iorq (s : State) : (snapAfter s).iorq = s.snap.iorq := by
  unfold snapAfter; split <;> rfl

section
variable {rem : Nat} {half : Half} {cont : Cont} {u t : State}

/-- Steps 3 to 7 keep what the filter looks at: the mask and the sampled requests (R240). -/
theorem HalfCycleDone.emitHit_eq (done : HalfCycleDone rem half cont u t) :
    emitHit t.dbg t.snap = emitHit u.dbg u.snap := by
  simp [emitHit, done.ends.dbg, done.snap]

/-- No line is emitted in a HIGH half-cycle (R240). -/
theorem HalfCycleDone.trace_of_hi (done : HalfCycleDone rem .hi cont u t) : t.trace = u.trace :=
  done.ends.trace

theorem HalfCycleDone.trace_of_lo (done : HalfCycleDone rem .lo cont u t) :
    t.trace = u.trace ++ linesAtEnd u.rst t :=
  done.ends.trace

/-- Without a sink no half-cycle emits (R240). -/
theorem HalfCycleDone.trace_of_noSink (done : HalfCycleDone rem half cont u t) (noSink : u.sink.inst = false) :
    t.trace = u.trace := by
  rw [done.ends.trace, linesAtEnd_noSink _ (done.ends.sink ▸ noSink), List.append_nil, ite_self]

/-- A LOW half-cycle that does not hit emits nothing (R240). -/
theorem HalfCycleDone.trace_of_noHit (done : HalfCycleDone rem .lo cont u t) (sink : u.sink.inst = true)
    (noHit : emitHit u.dbg u.snap = false) : t.trace = u.trace := by
  rw [done.trace_of_lo, linesAtEnd_of_noHit _ (done.ends.sink ▸ sink) (done.emitHit_eq.trans noHit),
    List.append_nil]

/-- A LOW half-cycle that hits emits the cycle's lines, with CNT counted and RST before the reset tail (R242,
R243). -/
theorem HalfCycleDone.trace_of_hit (done : HalfCycleDone rem .lo cont u t) (sink : u.sink.inst = true)
    (hit : emitHit u.dbg u.snap = true) :
    t.trace = u.trace ++ (u.sink.handle, .summary (u.cnt + 1) t.snap) ::
      (if dbgVerbose u.dbg then
        [(u.sink.handle, .pinIn t.snap), (u.sink.handle, .pinOut u.clk u.rst u.int u.nmi t.dout),
          (u.sink.handle, .pinDir t.dir)]
      else []) := by
  have ends := done.ends
  have count : t.cnt = u.cnt + 1 := ends.cnt
  rw [done.trace_of_lo, linesAtEnd_of_hit _ (ends.sink ▸ sink) (done.emitHit_eq.trans hit), ends.sink, ends.dbg,
    ends.clk, ends.int, ends.nmi, count]

end

/-- Settles O44: the half-cycle completes (`HalfCycleRuns.completes`), and each clause is a case of the filter
(`HalfCycleDone.trace_of_hi`, `trace_of_noSink`, `trace_of_noHit`, `trace_of_hit`). -/
theorem emissionFilter : Obligations.EmissionFilter := by
  intro s t rem half cont run noReentry room hexec
  have runs : HalfCycleRuns rem half cont (class6 s) s := ⟨run, rfl, noReentry, room⟩
  obtain ⟨t', hexec', done⟩ := runs.completes
  cases hexec'.symm.trans hexec
  refine ⟨?_, done.trace_of_noSink, ?_, ?_⟩
  · rintro rfl; exact done.trace_of_hi
  · rintro rfl; exact done.trace_of_noHit
  · rintro rfl; exact done.trace_of_hit

/-! The I/O trace over two cycles. -/

/-- A whole cycle, from `s` before its HIGH half-cycle to `t` after its LOW one, whose sampled pins were `q`, with
the pins `ps` left. -/
structure CycleDone (rem : Nat) (cont : Cont) (q : Pins) (ps : List Pins) (s t : State) : Prop where
  fsm   : t.fsm = fsmAfter rem .lo cont
  cnt   : t.cnt = s.cnt + 1
  iorq  : t.snap.iorq = q.iorq
  pins  : t.env.pins = ps
  trace : t.trace = s.trace ++ linesAtEnd s.rst t
  keeps : RunKeeps s t

/-- The two half-cycles of a cycle with listed pins complete, without re-entry and with room in the counter
(R141, R152). -/
theorem cycle_completes {rem : Nat} {cont : Cont} {p q : Pins} {ps : List Pins} {s : State}
    (run : s.fsm = .run rem .hi cont) (quiet : Quiet s) (room : s.cnt < s.params.cntMax)
    (listed : s.env.pins = p :: q :: ps) :
    ∃ t, (∀ k, runSteps (k + 2) s = runSteps k t) ∧ CycleDone rem cont q ps s t := by
  obtain ⟨u, hu, high⟩ := step_of_quiet_run run quiet nofun
  have listedLow : u.env.pins = q :: ps := by
    rw [high.ends.pins]
    exact congrArg List.tail listed
  have count : u.cnt = s.cnt := high.ends.cnt
  have roomLow : u.cnt < u.params.cntMax := by
    rw [count, high.keeps.params]
    exact room
  obtain ⟨t, ht, low⟩ := step_of_quiet_run high.ends.fsm (high.keeps.quiet quiet) fun _ => roomLow
  refine ⟨t, fun k => (runSteps_succ hu (k + 1)).trans (runSteps_succ ht k), ?_⟩
  exact
    { fsm := low.ends.fsm
      cnt := low.ends.cnt.trans (congrArg (· + 1) count)
      iorq := by rw [low.snap, snapAfter_iorq, openHalf_snap_iorq, nextPins_of_cons listedLow]
      pins := low.ends.pins.trans (congrArg List.tail listedLow)
      trace := by
        rw [low.trace_of_lo, openHalf_trace, high.trace_of_hi, openHalf_rst, high.ends.rst]
        rfl
      keeps := high.keeps.trans low.keeps }

/-- With the IO flag alone, a cycle hits exactly when I/O-request is sampled (R240). -/
theorem emitHit_ioOnly (snap : Snap) : emitHit 0b0010 snap = snap.iorq := by
  simp [emitHit, dbgCycle, dbgIo, dbgMem]

/-- With the IO flag alone, a cycle emits one SUMMARY or nothing (R240, R244). -/
theorem linesAtEnd_ioOnly (rst : Bool) {t : State} (sink : t.sink.inst = true) (io : t.dbg = 0b0010) :
    linesAtEnd rst t = if t.snap.iorq then [(t.sink.handle, .summary t.cnt t.snap)] else [] := by
  have hit := emitHit_ioOnly t.snap
  rw [← io] at hit
  cases request : t.snap.iorq with
  | false => exact linesAtEnd_of_noHit rst sink (hit.trans request)
  | true =>
    rw [linesAtEnd_of_hit rst sink (hit.trans request), io]
    rfl

/-- Settles O45: the run is two cycles (`cycle_completes`); the first emits its SUMMARY, the second nothing
(`linesAtEnd_ioOnly`). -/
theorem ioTraceEmitsExactlyOneLine : Obligations.IoTraceEmitsExactlyOneLine := by
  intro s p1 p2 p3 p4 ps run noReentry room sink io listed request noRequest
  obtain ⟨u, hu, first⟩ := cycle_completes run (.inl noReentry) (by omega) listed
  have sinkFirst : u.sink.inst = true := first.keeps.sink ▸ sink
  have ioFirst : u.dbg = 0b0010 := first.keeps.dbg.trans io
  have roomSecond : u.cnt < u.params.cntMax := by
    rw [first.cnt, first.keeps.params]
    omega
  obtain ⟨t, ht, second⟩ := cycle_completes first.fsm (first.keeps.quiet (.inl noReentry)) roomSecond first.pins
  refine ⟨t, u.snap, (hu 2).trans (ht 0), second.fsm, ?_⟩
  rw [second.trace, linesAtEnd_ioOnly _ (second.keeps.sink ▸ sinkFirst) (second.keeps.dbg.trans ioFirst),
    second.iorq, noRequest, first.trace, linesAtEnd_ioOnly _ sinkFirst ioFirst, first.iorq, request,
    first.keeps.sink, first.cnt]
  exact List.append_nil _

end Sys2Proof.Machine
end

section
/-! Between runs (60_exceptions.md R261, R262, R264, R274), and the rules over every step (R265) and over several
cores (R272). -/

namespace Sys2Proof.Machine

/-- Settles O13: with an empty queue a step between runs waits (`step_waiting`). -/
theorem idleWithoutCommandKeepsState : Obligations.IdleWithoutCommandKeepsState := fun _ => step_waiting

/-- INIT is refused REINIT in a constructed core that has not stopped (R225, R262). -/
theorem exec_init_constructed {s : State} {rem : Nat} {half : Half} {cont : Cont}
    (constructed : s.fsm = .idle ∨ s.fsm = .run rem half cont) : exec .init s = .next (refuse .reinit s) := by
  rw [exec_init]
  rcases constructed with idle | run
  · exact acceptOff_idle idle _
  · exact acceptOff_run run _

/-- Settles O20: INIT by `exec_init_constructed`, every other command by `exec_outside_idle`. -/
theorem refusedCommandsChangeOnlyMarkAndFsm : Obligations.RefusedCommandsChangeOnlyMarkAndFsm := by
  refine ⟨⟨rfl, rfl, rfl, rfl⟩, fun i s command => ⟨fun notInit => ?_, fun notInit => ?_, fun init => ?_⟩⟩
  · obtain ⟨off, -, -⟩ := exec_outside_idle command notInit s
    exact off
  · obtain ⟨-, run, -⟩ := exec_outside_idle command notInit s
    exact run
  · subst init
    exact fun _ _ _ constructed => exec_init_constructed constructed

/-- The refusal of a re-entering word that decodes (R264). -/
theorem reentryReason_of_instr {w : CmdWord} {i : Instr} (decoded : decodeCommand w = .instr i) :
    reentryReason w = if i = .init then .reinit else .busy := by
  simp [reentryReason, decoded]

/-- Settles O33: INIT is refused by `acceptOff`, every other command by `acceptIdle`, with the reason that
`reentryReason_of_instr` gives. -/
theorem reentryRefusalIsTheCommandsOwn : Obligations.ReentryRefusalIsTheCommandsOwn := by
  intro s w i rem half cont run decoded
  rw [exec_command (isCommand_of_decode decoded), reentryReason_of_instr decoded]
  by_cases init : i = .init
  · rw [if_pos init, if_pos init]
    exact acceptOff_run run _
  · rw [if_neg init, if_neg init]
    exact acceptIdle_run run _

/-- No accepted command asserts INT or NMI: RESET deasserts them, and no other writes them (R220). -/
theorem CommandDone.interrupts {s t : State} (done : CommandDone s t) :
    (t.int = true → s.int = true) ∧ (t.nmi = true → s.nmi = true) := by
  cases done with
  | reset => exact ⟨nofun, nofun⟩
  | nothing | advance | handler | debug | sink => exact ⟨id, id⟩

/-- Settles O39: by the inversion of a step (`step_cases`). INIT and RESET deassert the two lines, and every other
step keeps them. -/
theorem noStepAssertsInterrupts : Obligations.NoStepAssertsInterrupts := by
  intro s t hs
  cases step_cases hs with
  | waits => exact ⟨id, id⟩
  | refuses => exact ⟨id, id⟩
  | constructs => exact ⟨nofun, nofun⟩
  | commands _ done => exact done.interrupts
  | completes _ _ _ _ done => exact ⟨done.ends.int.symm.trans, done.ends.nmi.symm.trans⟩
  | stops _ _ _ _ stopped => exact ⟨stopped.same.int.symm.trans, stopped.same.nmi.symm.trans⟩

/-- A step of one of several cores is that core's own step, put in its place (log entry 17). -/
theorem stepOne_next {k : Nat} {cores cores' : List State} (h : stepOne k cores = some (.next cores')) :
    ∃ s t, cores[k]? = some s ∧ step s = .next t ∧ cores' = cores.set k t := by
  unfold stepOne at h
  cases hk : cores[k]? with
  | none => simp [hk] at h
  | some s =>
    cases hs : step s with
    | next t => exact ⟨s, t, rfl, hs, by simpa [hk, hs, eq_comm] using h⟩
    | fault c => simp [hk, hs] at h
    | refused r => simp [hk, hs] at h

/-- Settles O56: the step replaces one entry of the list (`stepOne_next`). -/
theorem coresDoNotInterfere : Obligations.CoresDoNotInterfere := by
  intro cores cores' k h
  obtain ⟨s, t, hk, hs, rfl⟩ := stepOne_next h
  have bound : k < cores.length := (List.getElem?_eq_some_iff.1 hk).1
  exact ⟨⟨s, t, hk, hs, List.getElem?_set_self bound⟩, fun j other => List.getElem?_set_ne other.symm,
    List.length_set⟩

end Sys2Proof.Machine
end

section
/-! The stops of a half-cycle (60_exceptions.md R263, R264): the counter's overflow, and a responder or a sink that
issues a command during its call. For the latter the class's own part is given with its replies and draws exact, which
`exec_classify` leaves open. -/

namespace Sys2Proof.Machine

/-! The overflow. -/

/-- Settles O29: the half-cycle cannot complete, for want of a next counter value, and where no party re-enters
it stops with the overflow (`HalfCycleStops.overflow`). -/
theorem counterOverflowStopsTheCore : Obligations.CounterOverflowStopsTheCore := by
  refine ⟨rfl, fun s rem cont run noReentry full => ?_⟩
  rw [decodeKey_class6]
  obtain ⟨t, hexec, done | stopped⟩ := halfCycle_cases run
  · exact absurd full (done.room rfl).ne
  · obtain ⟨-, -, mark, cnt, trace, hist, dout, prevRd, prevWr, dir, snap⟩ := stopped.overflow (.inl noReentry)
    have same := stopped.same
    exact ⟨t, hexec, mark, stopped.fsm, cnt, trace, stopped.rst, hist, dout, snap, prevRd, prevWr, dir, same.ht,
      same.dbg, same.sink, same.int, same.nmi, same.clk⟩

/-! One call. -/

/-- The command that the party called next issues during its call, if any; past the listed replies there is none
(R264, log entry 4). -/
def issuedCommand (s : State) : Option CmdWord := s.env.replies.head?.bind Reply.command

theorem issuedCommand_of_cons {s : State} {r : Reply} {rs : List Reply} (listed : s.env.replies = r :: rs) :
    issuedCommand s = r.command := by
  simp [issuedCommand, listed]

theorem nextReply_issued (v : Byte) (s : State) : (nextReply v s).command = issuedCommand s := by
  unfold nextReply issuedCommand
  cases s.env.replies <;> rfl

theorem callWith_returns {s : State} (issued : issuedCommand s = none) (v : Byte) :
    callWith (nextReply v s) s = .go (dropReply s) := by
  simp [callWith, nextReply_issued, issued]

theorem callWith_reenters {s : State} {w : CmdWord} (issued : issuedCommand s = some w) (v : Byte) :
    callWith (nextReply v s) s = .halt (refuse (reentryReason w) (dropReply s)) := by
  simp [callWith, nextReply_issued, issued]

/-! One dispatch, with the state it leaves written out. -/

/-- How a dispatch to the slot `v` from `s` ends: the slot is empty, or its responder is called, and it returns or
issues a command. `done` is `s` with the dispatch written (R190 to R198, R264). -/
inductive DispatchEnds (v : Slot) (s done : State) : Phase → Prop where
  | silent (empty : v.inst = false) : DispatchEnds v s done (.go done)
  | returns (installed : v.inst = true) (issued : issuedCommand s = none) :
      DispatchEnds v s done (.go (dropReply done))
  | reenters (installed : v.inst = true) (w : CmdWord) (issued : issuedCommand s = some w) :
      DispatchEnds v s done (.halt (refuse (reentryReason w) (dropReply s)))

/-- The call of an installed responder, and what follows its return. -/
theorem callThen_ends {v : Slot} {s done : State} (installed : v.inst = true) (free : Byte) {f : State → State}
    (follows : f (dropReply s) = dropReply done) :
    DispatchEnds v s done (phaseThen (callWith (nextReply free s) s) fun t => .go (f t)) := by
  cases issued : issuedCommand s with
  | none =>
    rw [callWith_returns issued, phaseThen_go, follows]
    exact .returns installed issued
  | some w =>
    rw [callWith_reenters issued, phaseThen_halt]
    exact .reenters installed w issued

/-- A read dispatch writes its value to DOUT and its record to HIST (R193, R194). -/
theorem dispatchRead_ends (k : Kind) (loc : Location) (half : Half) (s : State) :
    DispatchEnds (slotOf s.ht k) s { s with
      dout := (readOutcome k loc s).1
      hist := s.hist ++ [⟨k, loc, (readOutcome k loc s).1, (readOutcome k loc s).2, s.cnt, half⟩] }
      (dispatchRead k loc half s) := by
  cases installed : (slotOf s.ht k).inst with
  | false =>
    simp only [dispatchRead, readOutcome, installed]
    exact .silent installed
  | true =>
    simp only [dispatchRead, readOutcome, installed, if_true]
    exact callThen_ends installed _ rfl

/-- A write dispatch writes its record to HIST (R195, R196). -/
theorem dispatchWrite_ends (k : Kind) (loc : Location) (d : Byte) (half : Half) (s : State) :
    DispatchEnds (slotOf s.ht k) s { s with hist := s.hist ++ [⟨k, loc, d, writeServed k s, s.cnt, half⟩] }
      (dispatchWrite k loc d half s) := by
  cases installed : (slotOf s.ht k).inst with
  | false =>
    simp only [dispatchWrite, writeServed, installed]
    exact .silent installed
  | true =>
    simp only [dispatchWrite, writeServed, installed, if_true]
    exact callThen_ends installed _ rfl

/-! The class's own part. -/

/-- Steps 3 and 4 of a class (R180 to R188); a command has no half-cycle and is given none here. -/
def ownPart (i : Instr) (half : Half) (s : State) : Phase :=
  match i with
  | .memRead _ _ _ => dispatchRead .memrd (.mem s.snap.a) half (turnBus .output s)
  | .ioRead _ _ => dispatchRead .iord (.port (portOf s.snap.a)) half (turnBus .output s)
  | .rdNone _ _ => .go (turnBus .output s)
  | .memWrite _ _ => dispatchWrite .memwr (.mem s.snap.a) s.env.pinsNow.d half (takeWriteData s)
  | .ioWrite _ => dispatchWrite .iowr (.port (portOf s.snap.a)) s.env.pinsNow.d half (takeWriteData s)
  | .wrNone _ => .go (takeWriteData s)
  | .rdHeld _ _ _ _ | .wrHeld _ _ _ | .idle _ _ _ _ => .go s
  | .init | .advance _ | .reset | .seth _ _ | .clrh _ | .setdbg _ | .setsink _ | .clrsink => .go s

/-- A class's meaning is the half-cycle with its own part (R142). -/
theorem exec_ownPart {i : Instr} (hi : i.isCommand = false) (s : State) : exec i s = halfCycle (ownPart i) s := by
  cases i
  case init | advance | reset | seth | clrh | setdbg | setsink | clrsink => cases hi
  all_goals rfl

theorem isCommand_classify (snap : Snap) (prevRd prevWr : Bool) :
    (classify snap prevRd prevWr).isCommand = false := by
  unfold classify
  split_ifs <;> rfl

/-- The state in which a responder is called: DIR is switched and SNAP.D is read (R146, R148, R172). -/
def atCall (u : State) : State := { u with dir := holdDir u.snap, snap := snapAfter u }

/-- What steps 3 and 4 of a half-cycle leave of data, record and snapshot, with DIR as given (R193 to R198). -/
def dispatched (half : Half) (d : Dir) (u : State) : State :=
  { u with dir := d, dout := dataAfter u, hist := u.hist ++ recordOf half u, snap := snapAfter u }

/-- How a class's own part ends: it calls no responder, or it calls one, which returns or issues a command. -/
inductive PartEnds (half : Half) (u : State) : Phase → Prop where
  | silent (calls : responderCalls half u = 0) (d : Dir) : PartEnds half u (.go (dispatched half d u))
  | returns (calls : responderCalls half u = 1) (issued : issuedCommand u = none) (d : Dir) :
      PartEnds half u (.go (dropReply (dispatched half d u)))
  | reenters (calls : responderCalls half u = 1) (w : CmdWord) (issued : issuedCommand u = some w) :
      PartEnds half u (.halt (refuse (reentryReason w) (dropReply (atCall u))))

section
variable {half : Half} {u : State}

theorem DispatchEnds.partEnds {v : Slot} {d : Dir} {b : Phase} (calls : responderCalls half u = slotCalls v)
    (ends : DispatchEnds v (atCall u) (dispatched half d u) b) : PartEnds half u b := by
  unfold slotCalls at calls
  cases ends with
  | silent empty => exact .silent (calls.trans (if_neg (by simp [empty]))) d
  | returns installed issued => exact .returns (calls.trans (if_pos installed)) issued d
  | reenters installed w issued => exact .reenters (calls.trans (if_pos installed)) w issued

/-- A half-cycle with no record changes DIR and SNAP.D at most (R197). -/
theorem partEnds_undispatched {n : Snap} (record : recordOf half u = []) (snap : snapAfter u = n) (d : Dir) :
    PartEnds half u (.go { u with dir := d, snap := n }) := by
  have ends := PartEnds.silent (responderCalls_nil record) d
  rwa [dispatched, record, dataAfter_of_recordOf_nil record, List.append_nil, snap] at ends

theorem partEnds_dispatchRead {k : Kind} {loc : Location} (rd : u.snap.rd = true)
    (record : recordOf half u = [⟨k, loc, (readOutcome k loc u).1, (readOutcome k loc u).2, u.cnt, half⟩])
    (data : dataAfter u = (readOutcome k loc u).1) :
    PartEnds half u (dispatchRead k loc half (turnBus .output u)) := by
  refine DispatchEnds.partEnds (d := .output) (responderCalls_read record) ?_
  rw [atCall, dispatched, record, data, snapAfter_of_rd rd, holdDir, if_pos rd]
  exact dispatchRead_ends k loc half (turnBus .output u)

theorem partEnds_dispatchWrite {k : Kind} {loc : Location} (rd : u.snap.rd = false) (wr : u.snap.wr = true)
    (prevWr : u.prevWr = false)
    (record : recordOf half u = [⟨k, loc, u.env.pinsNow.d, writeServed k u, u.cnt, half⟩]) :
    PartEnds half u (dispatchWrite k loc u.env.pinsNow.d half (takeWriteData u)) := by
  have data : dataAfter u = u.dout := by simp [dataAfter, rd]
  refine DispatchEnds.partEnds (d := .input) (responderCalls_write record) ?_
  rw [atCall, dispatched, record, data, snapAfter_of_edge rd wr prevWr, holdDir, if_neg (by simp [rd])]
  exact dispatchWrite_ends k loc u.env.pinsNow.d half (takeWriteData u)

/-- Every class's own part, by the branches of R175. -/
theorem partEnds_ownPart (half : Half) (u : State) :
    PartEnds half u (ownPart (classify u.snap u.prevRd u.prevWr) half u) := by
  unfold classify
  cases rd : u.snap.rd with
  | true =>
    have snap := snapAfter_of_rd rd
    simp only [if_true]
    split_ifs with held mreq iorq
    · exact partEnds_undispatched (by simp [recordOf, rd, held]) snap u.dir
    · exact partEnds_dispatchRead rd (by simp [recordOf, rd, held, mreq])
        (by simp [dataAfter, rd, held, mreq])
    · exact partEnds_dispatchRead rd (by simp [recordOf, rd, held, mreq, iorq])
        (by simp [dataAfter, rd, held, mreq, iorq])
    · exact partEnds_undispatched (by simp [recordOf, rd, held, mreq, iorq]) snap .output
  | false =>
    simp only [Bool.false_eq_true, if_false]
    split_ifs with wr held mreq iorq
    · exact partEnds_undispatched (by simp [recordOf, rd, held]) (by simp [snapAfter, writeEdge, held]) u.dir
    · exact partEnds_dispatchWrite rd wr (by simp [held]) (by simp [recordOf, rd, wr, held, mreq])
    · exact partEnds_dispatchWrite rd wr (by simp [held]) (by simp [recordOf, rd, wr, held, mreq, iorq])
    · exact partEnds_undispatched (by simp [recordOf, rd, mreq, iorq]) (snapAfter_of_edge rd wr (by simp [held]))
        .input
    · exact partEnds_undispatched (by simp [recordOf, rd, wr]) (by simp [snapAfter, writeEdge, wr]) u.dir

/-- The half-cycle of the class that the branches of R175 pick, and how its own part ends (R180 to R188). -/
theorem exec_class6 {rem : Nat} {cont : Cont} (run : u.fsm = .run rem half cont) :
    ∃ b, exec (decodeKey (class6 u)) u = .next (phaseState (phaseThen b (closeHalf rem half cont))) ∧
      PartEnds half u b := by
  rw [decodeKey_class6, exec_ownPart (isCommand_classify ..)]
  exact ⟨_, halfCycle_run run _, partEnds_ownPart half u⟩

end

/-- The refusal of a re-entering word, by what the word decodes to (R264). -/
theorem reentryReason_eq (w : CmdWord) :
    reentryReason w = match decodeCommand w with
      | .reserved _ => .reservedEncoding
      | .instr .init => .reinit
      | .instr _ => .busy := by
  unfold reentryReason
  cases decodeCommand w with
  | reserved => rfl
  | instr i => cases i <;> rfl

/-- A dispatch reads SNAP.D again exactly when it is a write's: then there is a write edge (R172, R174). -/
theorem snapAfter_of_record {half : Half} {u : State} {r : HistRecord} (record : recordOf half u = [r]) :
    snapAfter u = if u.snap.rd then u.snap else { u.snap with d := u.env.pinsNow.d } := by
  rcases recordOf_cases half u with empty | ⟨-, -, -, -, rd, -⟩ | ⟨-, -, -, -, rd, wr, prevWr⟩
  · simp [empty] at record
  · rw [snapAfter_of_rd rd, if_pos rd]
  · rw [snapAfter_of_edge rd wr prevWr, if_neg (by simp [rd])]

/-- Settles O31: the dispatch calls one responder, its reply holds the command, and of the ends of a class's own part
(`exec_class6`) only the one inside the call is left. -/
theorem reentryDuringACallStopsTheCore : Obligations.ReentryDuringACallStopsTheCore := by
  intro s rem half cont r h v w rs run record served listed
  have once : responderCalls half s = 1 := by simp [responderCalls, record, served]
  have issues : issuedCommand s = some w := issuedCommand_of_cons listed
  obtain ⟨b, hexec, ends⟩ := exec_class6 run
  rw [hexec]
  cases ends with
  | silent zero => omega
  | returns _ issued => simp [issues] at issued
  | reenters _ w' issued =>
    obtain rfl : w = w' := by simpa [issues] using issued
    rw [phaseThen_halt, phaseState_halt, reentryReason_eq, atCall, snapAfter_of_record record]
    simp only [dropReply, listed, List.tail_cons]
    rfl

/-! A sink that issues a command. -/

/-- The outside after `n` calls, with `rest` the replies still listed (log entry 4). -/
def afterCalls (n : Nat) (rest : List Reply) (e : Env) : Env := { e with replies := rest, draws := e.draws + n }

theorem afterCalls_afterCalls (m n : Nat) (l l' : List Reply) (e : Env) :
    afterCalls n l' (afterCalls m l e) = afterCalls (m + n) l' e := by
  simp [afterCalls, Nat.add_assoc]

/-- `s` with another outside. -/
def withEnv (e : Env) (s : State) : State := { s with env := e }

/-- A class's own part whose call, if it makes one, returns: the listed replies begin with `before`, which is long
enough for the call and holds no command. -/
theorem PartEnds.goes {half : Half} {s : State} {b : Phase} {before rest : List Reply} (ends : PartEnds half s b)
    (listed : s.env.replies = before ++ rest) (returned : ∀ r ∈ before, r.command = none)
    (enough : responderCalls half s ≤ before.length) :
    ∃ d, b = .go (withEnv
      (afterCalls (responderCalls half s) (before.drop (responderCalls half s) ++ rest) s.env)
      (dispatched half d s)) := by
  cases ends with
  | silent calls d => exact ⟨d, by simp [calls, ← listed, dispatched, withEnv, afterCalls]⟩
  | returns calls issued d =>
    cases before with
    | nil => simp [calls] at enough
    | cons r before => exact ⟨d, by simp [dropReply, dispatched, withEnv, afterCalls, listed, calls]⟩
  | reenters calls w issued =>
    cases before with
    | nil => simp [calls] at enough
    | cons r before => simp [issuedCommand_of_cons listed, returned] at issued

/-- A cycle's LOW half-cycle with its dispatch, latches, direction and count done, before the instrumentation and
with the outside as the sample left it (R142, R152). -/
def countedCycle (s : State) : State :=
  { s with
    dir := if s.snap.rd then .output else .input
    prevRd := s.snap.rd
    prevWr := s.snap.wr
    dout := dataAfter s
    hist := s.hist ++ recordOf .lo s
    snap := snapAfter s
    cnt := s.cnt + 1 }

/-- Steps 5 to 7 after the dispatch of a cycle's LOW half-cycle, with room in the counter (R152). -/
theorem closeHalf_dispatched {s : State} (room : s.cnt < s.params.cntMax) (rem : Nat) (cont : Cont) (d : Dir)
    (e : Env) :
    closeHalf rem .lo cont (withEnv e (dispatched .lo d s)) =
      phaseThen (instrument (withEnv e (countedCycle s))) fun t => .go (nextCycle rem cont t) := by
  have noOverflow : ¬ cntAtMax s.params s.cnt = true := by simp [cntAtMax, room]
  have counted : countCycle (holdDirection (latchStrobes (withEnv e (dispatched .lo d s)))) =
      withEnv e (countedCycle s) := by
    simp [countCycle, holdDirection, latchStrobes, holdDir, withEnv, dispatched, countedCycle]
  rw [← counted]
  exact if_neg noOverflow

/-- A sink that issues a command in the call for one of the cycle's lines (R241, R264). -/
theorem instrument_reentry {s : State} {e : Env} {before rs : List Reply} {v : Byte} {w : CmdWord}
    (listed : e.replies = before ++ { value := v, command := some w } :: rs)
    (returned : ∀ r ∈ before, r.command = none) (fewer : before.length < (linesAtEnd s.rst s).length) :
    instrument (withEnv e s) = .halt (refuse (reentryReason w) (withEnv (afterCalls (before.length + 1) rs e)
      { s with trace := s.trace ++ (linesAtEnd s.rst s).take before.length })) := by
  have lines (sink : s.sink.inst = true) :
      (cycleLines (withEnv e s)).map (fun l => (s.sink.handle, l)) = linesAtEnd s.rst s :=
    cycleLines_eq (withEnv e s) sink
  cases sink : s.sink.inst with
  | false => simp [linesAtEnd_noSink _ sink] at fewer
  | true =>
    rw [← lines sink, List.length_map] at fewer
    rw [← lines sink]
    exact (if_pos sink).trans (emitAll_reentry (s := withEnv e s) listed returned fewer)

/-- Settles O32: the responder's call, if there is one, returns (`PartEnds.goes`), and among the lines' calls the one
that the command's reply answers stops the core (`instrument_reentry`). -/
theorem reentryOfTheSinkStopsTheCore : Obligations.ReentryOfTheSinkStopsTheCore := by
  intro s rem cont before v w rs run room listed returned u enough fewer
  obtain ⟨b, hexec, ends⟩ := exec_class6 run
  obtain ⟨d, rfl⟩ := ends.goes listed returned enough
  have left : (before.drop (responderCalls .lo s)).length = before.length - responderCalls .lo s :=
    List.length_drop
  have calls : responderCalls .lo s + (before.length - responderCalls .lo s + 1) = before.length + 1 := by omega
  have lines : before.length - responderCalls .lo s < (linesAtEnd s.rst u).length := by omega
  rw [hexec, phaseThen_go, closeHalf_dispatched room, instrument_reentry (s := countedCycle s) rfl
    (fun r m => returned r (List.mem_of_mem_drop m)) (left ▸ lines), phaseThen_halt, phaseState_halt,
    afterCalls_afterCalls, left, calls, reentryReason_eq]
  rfl

end Sys2Proof.Machine
end

section
/-! Hazards of the strobes (70_reset_and_hazards.md R294, R296): a transaction whose strobe edge falls in a half-cycle
that cannot dispatch it is lost, because the next half-cycle finds the strobe held (R156). -/

namespace Sys2Proof.Machine

/-- With the strobes `p` of a half-cycle latched, the next half-cycle, its strobes `q` held, dispatches nothing: the
two leave what the first one dispatched. -/
theorem runSteps_two_of_undispatched {held latched : Bool → Bool → Prop} (still : Undispatched held latched)
    {s t : State} {rem : Nat} {half : Half} {cont : Cont} {p q : Pins} {ps : List Pins}
    (run : s.fsm = .run rem half cont) (listed : s.env.pins = p :: q :: ps)
    (last : latched p.rd p.wr) (now : held q.rd q.wr) (hs : runSteps 2 s = .next t) :
    t.hist = s.hist ++ recordOf half (openHalf half s) ∧ t.dout = dataAfter (openHalf half s) := by
  obtain ⟨m, done, hm⟩ := runSteps_two_cases run hs
  have ends := done.ends
  have constructed : m.fsm ≠ .off := ends.fsm ▸ fsmAfter_ne_off rem half cont
  have latches : latched m.prevRd m.prevWr := by
    rw [ends.prevRd, ends.prevWr]
    simpa [nextPins_of_cons listed] using last
  have left : m.env.pins = q :: ps := by rw [ends.pins, openHalf_of_cons half listed]
  have holds : HeldFor held 1 m.env.pins := by simp [HeldFor, left, now]
  obtain ⟨hist, dout⟩ := still.runSteps constructed latches holds (runSteps_succ hm 0)
  exact ⟨hist.trans done.hist, dout.trans done.dout⟩

/-- While the read-strobe is asserted, only a read is dispatched (R147, R176). -/
theorem isRead_of_mem_recordOf {half : Half} {u : State} (rd : u.snap.rd = true) {r : HistRecord}
    (mem : r ∈ recordOf half u) : isRead r = true := by
  rcases recordOf_cases half u with none | ⟨r', one, isRd, -⟩ | ⟨r', -, -, -, noRd, -⟩
  · simp [none] at mem
  · obtain rfl : r = r' := by simpa [one] using mem
    exact isRd
  · simp [rd] at noRd

theorem isRead_iff (r : HistRecord) : isRead r = true ↔ r.kind = .memrd ∨ r.kind = .iord := by
  simp [isRead]

/-- Without a request line nothing is dispatched, whatever the strobes do (R182, R186). -/
theorem recordOf_of_noRequest (half : Half) {u : State} (noMreq : u.snap.mreq = false)
    (noIorq : u.snap.iorq = false) : recordOf half u = [] := by
  simp [recordOf, noMreq, noIorq]

/-- Settles O53: the overlap dispatches at most a read (`isRead_of_mem_recordOf`) and latches the write-strobe, which
the next half-cycle finds held (`runSteps_two_of_undispatched`). -/
theorem writeHiddenByAReadIsLost : Obligations.WriteHiddenByAReadIsLost := by
  intro s t rem half cont p q ps run _ listed rd wr noRd held hs
  obtain ⟨hist, -⟩ := runSteps_two_of_undispatched undispatched_write run listed wr ⟨noRd, held⟩ hs
  have overlap : (openHalf half s).snap.rd = true := by simp [nextPins_of_cons listed, rd]
  exact ⟨_, hist, fun r mem => (isRead_iff r).1 (isRead_of_mem_recordOf overlap mem)⟩

/-- Settles O54: the edge finds no request (`recordOf_of_noRequest`), and in the next sample the strobe is held: the
read-strobe, or the write-strobe with the read-strobe deasserted. -/
theorem lateRequestIsNeverDispatched : Obligations.LateRequestIsNeverDispatched := by
  intro s t rem half cont p q ps run _ listed noMreq noIorq strobe hs
  have edge : recordOf half (openHalf half s) = [] :=
    recordOf_of_noRequest half (by simp [nextPins_of_cons listed, noMreq]) (by simp [nextPins_of_cons listed, noIorq])
  have leaves : t.hist = s.hist ++ recordOf half (openHalf half s) ∧ t.dout = dataAfter (openHalf half s) := by
    rcases strobe with ⟨rd, held⟩ | ⟨-, noRd, wr, held⟩
    · exact runSteps_two_of_undispatched undispatched_read run listed rd held hs
    · exact runSteps_two_of_undispatched undispatched_write run listed wr ⟨noRd, held⟩ hs
  rwa [dataAfter_of_recordOf_nil edge, edge, List.append_nil] at leaves

end Sys2Proof.Machine
end
